-- ==== Sys2Proof/Word.lean ====
section
/-! DEFINITION. The widths of the capture core: a byte, a buffer index, an interface word (R10, R7, R8, R74). -/
namespace Sys2Proof

/-- `u8`: a sample, the history, the duty value, a serial byte (R7). -/
abbrev Byte := BitVec 8

/-- `u10`: `head`, the stop index, a physical or chronological index. Its range is `0..N-1`, so
its wrapping sum is the sum modulo `N = 1024` (R8, R76). -/
abbrev Index := BitVec 10

/-- `u16`: an OP16 interface word, or an entry of the direct consumer's result log (R74, R77). -/
abbrev Word := BitVec 16

/-- `zext_16(v)`: widening with zero bits (R10). -/
def zext16 {w : Nat} (v : BitVec w) : Word := v.zeroExtend 16

end Sys2Proof
end

