-- ==== Sys2Proof/Config.lean ====
section
/-! DEFINITION. The parameters of the capture core (R7, R9) and the model's free values (R13, R206). -/
namespace Sys2Proof

/-- `N`, the buffer capacity in samples (R7). -/
def Config.capacity : Nat := 1024

/-- `HALF = N/2`, the look-ahead from the arming cell to the stop index (R7). -/
def Config.half : Index := 512#10

/-- `QPATTERN`, the qualification pattern: eight lows (R7, R101). -/
def Config.qPattern : Byte := 0x00#8

/-- `CMD_DUMP`, the byte `'r'` (R7). -/
def Config.cmdDump : Byte := 0x72#8

/-- `CMD_TRIG`, the byte `'t'` (R7). -/
def Config.cmdTrig : Byte := 0x74#8

/-- `HEAD_RESET`, fixed at 0 by the spec's choice (R9, R21). -/
def Config.headReset : Index := 0#10

/-- `STOP_LATE_TICKS`, fixed at 0 by the spec's choice; the spec lets a model take 1 (R9, R37).
DESIGN CHOICE, log entry 3: the model takes the spec's 0. -/
def Config.stopLateTicks : Nat := 0

/-- `HIST_RESET`, OPEN, any 8-bit value (R9, R22). DESIGN CHOICE, log entry 1: it has no body, so
nothing can be proved that depends on one value of it. -/
opaque Config.histReset : Byte

/-- `DUTY_RESET`, OPEN, any 8-bit value (R9, R27). DESIGN CHOICE, log entry 2. -/
opaque Config.dutyReset : Byte

/-- `SAMPLE_PERIOD`, OPEN; no rule reads it (R9, R209). Log entry 15. -/
opaque Config.samplePeriod : Nat

/-- `BAUD`, OPEN; no rule reads it (R9). Log entry 15. -/
opaque Config.baud : Nat

/-- Free value of 8 bits, the `n`-th use: `draw() : u8` of R13 (R51, R181). Log entry 5. -/
opaque Config.freeByte : Nat → Byte

/-- Free value of 10 bits, the `n`-th use: `draw() : u10` of R13 (R156). Log entry 5. -/
opaque Config.freeIndex : Nat → Index

/-- One turn of an agent under the reference consumer (R18, R58, R206). -/
inductive Turn where
  /-- The tick agent, with the comparator bit and the sample its source delivers (R120). -/
  | tick (c : Bool) (s : Byte)
  /-- The reference consumer (R170). -/
  | consumer
  /-- The host sends one byte into its stream (R171, R212). -/
  | hostSend (b : Byte)
  /-- The transport becomes ready to accept one byte of the consumer's `tx` (R172, R212). -/
  | hostAccept
  deriving DecidableEq, Repr, Inhabited

/-- Which turn comes next where nothing has chosen it: every order of the agents' steps, every sample
and every host byte is left open (R19, R206, R120). A free value, log entry 6. -/
opaque Config.freeTurn : Nat → Turn

end Sys2Proof
end

