-- ==== Sys2Proof/Machine/State.lean ====
section
/-! DEFINITION. Everything the spec gives the machine, as plain data, and the machine right after reset
(10_state.md, R230). -/
namespace Sys2Proof.Machine

/-- The buffer `buf`: the written cells, addresses strictly rising and below `N`; an unlisted cell is
`Unwritten` (R20, R50). -/
abbrev Memory := List Host.Cell

/-- What an unlisted cell holds: `Unwritten`, a byte the model does not know (R20, R51). -/
def Memory.unlisted : Option Byte := none

/-- `st`, the TriggerState (R23); the stop index is part of the `Armed` value (R24). -/
inductive Trigger where
  | idle
  | armed (p : Index)
  | frozen
  deriving DecidableEq, Repr

/-- `cons`, the reference consumer's position (R28). `TDig(k, acc)` is split by `k`, so that `acc`
always holds exactly `k` bytes. -/
inductive Cons where
  /-- Waiting for a command byte (R173). -/
  | waitCmd
  /-- `TDig(0, [])` (R180). -/
  | tDig0
  /-- `TDig(1, [d0])` (R180). -/
  | tDig1 (d0 : Byte)
  /-- `TDig(2, [d0, d1])` (R180). -/
  | tDig2 (d0 d1 : Byte)
  /-- Busy-waiting for `Frozen` (R174). -/
  | rPoll
  /-- `Frozen` observed, clock not yet stopped (R175). -/
  | rStop
  /-- Sending window byte `j` (R176). -/
  | rSend (j : Index)
  /-- All bytes sent, clock not yet restarted (R177). -/
  | rStart
  deriving DecidableEq, Repr

/-- Which of its two forms the consumer agent has (R158). -/
inductive Form where
  /-- The CommandProcessor loop of 43_command_processor.md. -/
  | reference
  /-- A finite list of interface words, run from `dpc = 0`. -/
  | direct
  deriving DecidableEq, Repr

/-- The whole state. Fields marked MODEL are the model's own; no rule of the hardware reads them. -/
structure State where
  /-- The CaptureBuffer (R20). -/
  buf : Memory
  /-- The write cursor (R21). -/
  head : Index
  /-- The ComparatorHistory, most recent bit in position 0 (R22). -/
  hist : Byte
  /-- The TriggerState and its stop index (R23, R24). -/
  st : Trigger
  /-- The sample-clock run flag (R26). -/
  clkEn : Bool
  /-- The trigger-reference PWM duty register (R27). -/
  duty : Byte
  /-- The late-tick allowance (R37). -/
  late : Nat
  /-- The form of the consumer the model is given (R158). -/
  form : Form
  /-- The reference consumer's position (R28). -/
  cons : Cons
  /-- The direct consumer's list of words (R158). -/
  prog : List Word
  /-- The direct consumer's position (R28). -/
  dpc : Nat
  /-- The direct consumer's results, zero-extended, oldest first (R28, R77, R158). -/
  rlog : List Word
  /-- Sticky mark: a reserved word was refused (R29). -/
  refused : Bool
  /-- Sticky mark: a buffer cell was read while the clock ran (R29, R159). -/
  unsyncRead : Bool
  /-- Sticky mark: a tick cleared a freeze the consumer had seen (R29, R135). -/
  freezeLost : Bool
  /-- Helper bit: the last status read saw `Frozen` and no stop has run since (R29). -/
  obsFrozen : Bool
  /-- The host's byte stream, oldest first (R171). -/
  rx : List Byte
  /-- The bytes sent to the host, oldest first (R172). -/
  tx : List Byte
  /-- The transport accepts one byte (R172). Log entry 8. -/
  txReady : Bool
  /-- MODEL: turns already chosen, the next one first (R206). Log entry 6. -/
  sched : List Turn
  /-- MODEL: how many free values have been used (R13). Log entry 5. -/
  draws : Nat
  deriving DecidableEq, Repr

/-- Why the machine stops. The hardware raises no exception (R200): each is an outcome of the model
that R201 or R158 names. -/
inductive Fault where
  /-- Raised by TICK while it is not enabled: "the trace is stuck there and is not a run" (R121, R201,
  U16). Safe: no hardware run has this step. -/
  | tickNotEnabled
  /-- Raised by fetching when `dpc` is past the direct consumer's list: "the run ends" (R158). Safe:
  nothing is claimed of a step after the end. Log entry 12. -/
  | runEnded
  /-- Raised by a serial command's meaning when the consumer is inside another command: no byte is
  decoded as a command there (R182), and no step asks for it. Safe. Log entry 10. -/
  | commandInProgress
  deriving DecidableEq, Repr

/-- Why an instruction is given no meaning. -/
inductive Refusal where
  /-- An instruction without a meaning in this model. No arm of `exec` answers it. Safe. -/
  | notModelled (mnemonic : String)
  /-- Raised by fetching once a reserved word has set `refused`: "the model takes no further step for
  that agent" (R78, R201). Safe. Log entry 11. -/
  | reservedWord
  deriving DecidableEq, Repr

/-- RESET for given values of the two OPEN parameters (R230). The form, the list, the queues and the
MODEL fields have no reset value in the spec: log entries 5 to 8, DESIGN CHOICE. -/
def State.resetWith (histReset dutyReset : Byte) : State where
  buf := []
  head := Config.headReset
  hist := histReset
  st := .idle
  clkEn := true
  duty := dutyReset
  late := 0
  form := .reference
  cons := .waitCmd
  prog := []
  dpc := 0
  rlog := []
  refused := false
  unsyncRead := false
  freezeLost := false
  obsFrozen := false
  rx := []
  tx := []
  txReady := false
  sched := []
  draws := 0

/-- The machine right after RESET, `HIST_RESET` and `DUTY_RESET` left open (R230). Log entries 1, 2. -/
def State.reset : State := State.resetWith Config.histReset Config.dutyReset

end Sys2Proof.Machine
end

