-- ==== Sys2Proof/Machine/Flags.lean ====
section
/-! DEFINITION. The status flags, the register view and the hardware encoding of the trigger state
(R25, R31, R32). All are views of State; none is stored twice. -/
namespace Sys2Proof.Machine

/-- `FROZEN = (st == Frozen)` (R31). -/
def Trigger.isFrozen : Trigger → Bool
  | .frozen => true
  | .idle | .armed _ => false

/-- `ARMED = (st is Armed(_))` (R31). -/
def Trigger.isArmed : Trigger → Bool
  | .armed _ => true
  | .idle | .frozen => false

/-- The stop index, which exists only in `Armed` (R24). -/
def Trigger.stopIndex : Trigger → Option Index
  | .armed p => some p
  | .idle | .frozen => none

/-- STATUS: `{0b00000, CLKEN, ARMED, FROZEN}`, bits `[7:3]` hardwired to 0 (R32, R152). -/
def State.status (s : State) : Byte :=
  0b00000#5 ++ BitVec.ofBool s.clkEn ++ BitVec.ofBool s.st.isArmed ++ BitVec.ofBool s.st.isFrozen

/-- `st_code` (R25). -/
def Trigger.code : Trigger → BitVec 2
  | .idle => 0b00#2
  | .armed _ => 0b01#2
  | .frozen => 0b10#2

/-- The state a pair `st_code`, `stop_reg` stands for; `0b11` is reserved and stands for none
(R25, U6). -/
def Trigger.ofCode (code : BitVec 2) (stopReg : Index) : Option Trigger :=
  match code.toNat with
  | 0 => some .idle
  | 1 => some (.armed stopReg)
  | 2 => some .frozen
  | _ => none

/-- The registers of the register view (R32). -/
inductive RegName where
  | status
  | head
  | stop
  | hist
  | clkEn
  | duty
  deriving DecidableEq, Repr

/-- Who may access a register, and how (R32). -/
inductive Access where
  | readOnly
  | writeOnly
  /-- Written by the `'t'` command only. -/
  | levelCommandOnly
  deriving DecidableEq, Repr

/-- The register numbers of R32. -/
def RegName.number : RegName → Nat
  | .status => 0
  | .head => 1
  | .stop => 2
  | .hist => 3
  | .clkEn => 4
  | .duty => 5

/-- The access column of R32. -/
def RegName.access : RegName → Access
  | .status | .head | .stop | .hist => .readOnly
  | .clkEn => .writeOnly
  | .duty => .levelCommandOnly

/-- The bits column of R32: what a register holds, zero-extended. STOP holds no stated value outside
`Armed`, where a read of it is a draw (R156). -/
def State.regBits (s : State) : RegName → Option Word
  | .status => some (zext16 s.status)
  | .head => some (zext16 s.head)
  | .stop => s.st.stopIndex.map zext16
  | .hist => some (zext16 s.hist)
  | .clkEn => some (zext16 (BitVec.ofBool s.clkEn))
  | .duty => some (zext16 s.duty)

end Sys2Proof.Machine
end

