-- ==== Sys2Proof/Machine/Operands.lean ====
section
/-! DEFINITION. The index and operand arithmetic: the write cursor's advance, the stop index, the readout
mux, the qualifier, the history shift and the level parse (40_qualifier.md, R125, R126, R154, R181). -/
namespace Sys2Proof.Machine

/-- `(head + 1) mod N` (R126). -/
def nextIndex (head : Index) : Index := head + 1#10

/-- `(head + HALF) mod N` (R125). -/
def stopIndexFor (head : Index) : Index := head + Config.half

/-- The readout mux `(head + j) mod N` (R154). -/
def chronIndex (head j : Index) : Index := head + j

/-- `QUALIFY(h, st, c)` (R100). -/
def qualify (h : Byte) (st : Trigger) (c : Bool) : Bool :=
  st == .idle && h == Config.qPattern && c

/-- `HIST_SHIFT(h, c) = ((h << 1) | c)[7:0]` (R102). -/
def histShift (h : Byte) (c : Bool) : Byte := (h <<< 1) ||| (BitVec.ofBool c).zeroExtend 8

/-- A byte is a digit when it is `0x30..0x39` (R72, G1; log entry 14). -/
def isDigit (b : Byte) : Bool := decide (0x30 ≤ b.toNat ∧ b.toNat ≤ 0x39)

/-- The digit value `byte - 0x30` of a digit (R72). -/
def digitValue (b : Byte) : Nat := b.toNat - 0x30

/-- The value the spec states for three operand bytes, or none where it states none: a byte that is no
digit, or a value above 255 (R72, R181). -/
def levelValue (d0 d1 d2 : Byte) : Option Byte :=
  if isDigit d0 && isDigit d1 && isDigit d2 then
    let v := 100 * digitValue d0 + 10 * digitValue d1 + digitValue d2
    if v ≤ 255 then some (BitVec.ofNat 8 v) else none
  else none

end Sys2Proof.Machine
end

