-- ==== Sys2Proof/Machine/Ops.lean ====
section
/-! DEFINITION. The named operations over the buffer and the registers; every meaning is built from them.
The capture core has no exception to take (R200): the only preemption is the tick, whose entry saves
nothing and whose return restores nothing (R204, R205). -/
namespace Sys2Proof.Machine

/-! The buffer (20_memory.md). -/

/-- The cell at index `a`: `some v` for `Written(v)`, none for `Unwritten` (R51). -/
def Memory.read : Memory → Nat → Option Byte
  | [], _ => Memory.unlisted
  | (b, w) :: m, a => if a = b then some w else Memory.read m a

/-- `MemWrite(a, 1, v)`, in the canonical form (R51). -/
def Memory.write : Memory → Nat → Byte → Memory
  | [], a, v => [(a, v)]
  | (b, w) :: m, a, v =>
    if a < b then (a, v) :: (b, w) :: m
    else if a = b then (a, v) :: m
    else (b, w) :: Memory.write m a v

/-- The addresses rise strictly from `lo` on and stay below `N`. -/
def Memory.wfFrom : Nat → Memory → Bool
  | _, [] => true
  | lo, (a, _) :: m => decide (lo ≤ a) && decide (a < Config.capacity) && Memory.wfFrom (a + 1) m

/-- The canonical form of the buffer. -/
def Memory.wf (m : Memory) : Bool := Memory.wfFrom 0 m

/-- `buf[a]` of a state (R12). -/
def State.cell (s : State) (a : Index) : Option Byte := Memory.read s.buf a.toNat

/-! Free values (R13). -/

/-- One more free value has been used. Log entry 5. -/
def State.nextDraw (s : State) : State := { s with draws := s.draws + 1 }

/-- `draw() : u8` (R13). -/
def State.drawByte (s : State) : Byte × State := (Config.freeByte s.draws, s.nextDraw)

/-- `draw() : u10` (R13). -/
def State.drawIndex (s : State) : Index × State := (Config.freeIndex s.draws, s.nextDraw)

/-- `MemRead(a, 1)`: a fresh draw for an `Unwritten` cell (R51). -/
def State.memRead (s : State) (a : Index) : Byte × State :=
  match s.cell a with
  | some v => (v, s)
  | none => s.drawByte

/-! The parts of a tick (R122 to R127). -/

/-- When TICK is enabled (R121). -/
def State.tickEnabled (s : State) : Bool := s.clkEn || decide (0 < s.late)

/-- "A TICK step taken with `clk_en == 0` decrements `late` by 1" (R121). -/
def State.spendLate (s : State) : State :=
  { s with late := if s.clkEn then s.late else s.late - 1 }

/-- Step 1: `MemWrite(head, 1, s)`, in every trigger state (R122). -/
def State.storeSample (s : State) (v : Byte) : State :=
  { s with buf := Memory.write s.buf s.head.toNat v }

/-- `st <- t` (R12). -/
def State.setTrigger (s : State) (t : Trigger) : State := { s with st := t }

/-- The mark of step 2: a freeze the consumer had seen is being cleared (R135). -/
def State.markFreezeLost (s : State) : State := { s with freezeLost := s.freezeLost || s.obsFrozen }

/-- Steps 2, 3 and 4, one else-if chain (R123, R124, R125, R128). -/
def State.triggerStep (s : State) (c : Bool) : State :=
  if s.st = .frozen then s.markFreezeLost.setTrigger .idle
  else if s.st = .armed s.head then s.setTrigger .frozen
  else if qualify s.hist s.st c then s.setTrigger (.armed (stopIndexFor s.head))
  else s

/-- Step 5 (R126). -/
def State.advanceHead (s : State) : State := { s with head := nextIndex s.head }

/-- Step 6 (R127). -/
def State.shiftHist (s : State) (c : Bool) : State := { s with hist := histShift s.hist c }

/-- The tick handler, one atomic step (R55, R120). It touches nothing of the consumer (R204). -/
def State.tick (s : State) (c : Bool) (v : Byte) : State :=
  (((s.spendLate.storeSample v).triggerStep c).advanceHead).shiftHist c

/-! The consumer's operations (42_consumer_ops.md). -/

/-- CLK_STOP (R150). -/
def State.stopClock (s : State) : State :=
  { s with
    late := if s.clkEn then Config.stopLateTicks else s.late
    clkEn := false
    obsFrozen := false }

/-- CLK_START (R151). -/
def State.startClock (s : State) : State := { s with clkEn := true, late := 0 }

/-- `obs_frozen <- b` (R152). -/
def State.setObsFrozen (s : State) (b : Bool) : State := { s with obsFrozen := b }

/-- RD_STATUS and its result (R152). -/
def State.readStatus (s : State) : Byte × State := (s.status, s.setObsFrozen (s.status.getLsbD 0))

/-- The mark of an unsynchronised read (R159). -/
def State.markUnsync (s : State) : State := { s with unsyncRead := s.unsyncRead || s.clkEn }

/-- RD_PHYS and its result (R153). -/
def State.readPhys (s : State) (a : Index) : Byte × State := s.markUnsync.memRead a

/-- RD_CHRON and its result (R154). -/
def State.readChron (s : State) (j : Index) : Byte × State := s.readPhys (chronIndex s.head j)

/-- RD_STOP and its result: a draw outside `Armed` (R156). -/
def State.readStop (s : State) : Index × State :=
  match s.st with
  | .armed p => (p, s)
  | .idle | .frozen => s.drawIndex

/-- The direct consumer keeps a read's result, zero-extended to 16 bits (R77, R158). -/
def State.logResult {w : Nat} (r : BitVec w × State) : State :=
  { r.2 with rlog := r.2.rlog ++ [zext16 r.1] }

/-! The reference consumer's operations (43_command_processor.md). -/

/-- `cons <- c` (R12). -/
def State.setCons (s : State) (c : Cons) : State := { s with cons := c }

/-- `duty <- v` (R180). -/
def State.setDuty (s : State) (v : Byte) : State := { s with duty := v }

/-- What `rx()` leaves of the host's stream (R171). -/
def State.setRx (s : State) (bs : List Byte) : State := { s with rx := bs }

/-- `tx(b)`, the transport's readiness for one byte being used up (R172). Log entry 8. -/
def State.send (s : State) (b : Byte) : State := { s with tx := s.tx ++ [b], txReady := false }

/-- `TVAL`: the stated value, or a draw where the spec states none (R181). -/
def State.parseLevel (s : State) (d0 d1 d2 : Byte) : Byte × State :=
  match levelValue d0 d1 d2 with
  | some v => (v, s)
  | none => s.drawByte

/-! The host and the schedule (R171, R172, R206). -/

/-- The host sends a byte into its stream; none is lost or reordered (R171). -/
def State.hostSend (s : State) (b : Byte) : State := { s with rx := s.rx ++ [b] }

/-- The transport becomes ready to accept a byte (R172). -/
def State.hostAccept (s : State) : State := { s with txReady := true }

/-- `refuse(reason)`: the sticky mark and no other effect (R13, R78). -/
def State.markRefused (s : State) : State := { s with refused := true }

/-- The direct consumer moves to its next word (R28). -/
def State.advanceDpc (s : State) : State := { s with dpc := s.dpc + 1 }

/-- The turns that remain chosen. -/
def State.setSched (s : State) (ts : List Turn) : State := { s with sched := ts }

/-- The next turn: the first one chosen, or a free one (R206). Log entry 6. -/
def State.takeTurn (s : State) : Turn × State :=
  match s.sched with
  | t :: ts => (t, s.setSched ts)
  | [] => (Config.freeTurn s.draws, s.nextDraw)

end Sys2Proof.Machine
end

