-- ==== Sys2Proof/Syntax.lean ====
section
/-! DEFINITION. The instructions: one constructor for each row of spec/opcode_table.json (R70, R71, R74). -/
namespace Sys2Proof

/-- The nine interface words (OP16) and the three serial commands (CMD8). -/
inductive Instr where
  /-- TICK: one sample tick with comparator bit `c` and sample `s` (R75, R120). -/
  | tick (c : Bool) (s : Byte)
  /-- CLK_STOP: stop the sample clock (R150). -/
  | clkStop
  /-- CLK_START: restart the sample clock (R151). -/
  | clkStart
  /-- RD_STATUS: read the trigger state (R152). -/
  | rdStatus
  /-- RD_PHYS: read the buffer cell at the physical index `a` (R153). -/
  | rdPhys (a : Index)
  /-- RD_CHRON: read the window at the chronological index `j` (R154). -/
  | rdChron (j : Index)
  /-- RD_HEAD: read the write cursor (R155). -/
  | rdHead
  /-- RD_STOP: read the stop index (R156). -/
  | rdStop
  /-- RD_HIST: read the comparator history (R157). -/
  | rdHist
  /-- CMD_R, the byte `'r'`: dump the capture window (R71, R173 to R177). -/
  | cmdR
  /-- CMD_T, the byte `'t'` and its hundreds, tens and units bytes: set the trigger level
  (R71, R72, R180). -/
  | cmdT (d0 d1 d2 : Byte)
  /-- CMD_IGN: any other command byte (R71, R79, R173). -/
  | cmdIgn (b : Byte)
  deriving DecidableEq, Repr

end Sys2Proof
end

