-- ==== Sys2Proof/Machine/Command.lean ====
section
/-! DEFINITION. The meanings of the serial commands (43_command_processor.md). A command is carried out in
several atomic steps, between which other agents move (R170, D15): a meaning is the one step that the
consumer's position `cons` calls for. Each step's `rx()` has been done when it is called (R171): `step`
takes the byte from the host's stream as it fetches. Log entry 10. -/
namespace Sys2Proof.Machine

/-- `RPoll` (R174). -/
def pollStep (s : State) : State :=
  let (r, s') := s.readStatus
  s'.setCons (if r.getLsbD 0 then .rStop else .rPoll)

/-- `RStop` (R175). -/
def stopStep (s : State) : State := s.stopClock.setCons (.rSend 0#10)

/-- Where the consumer goes after window byte `j` (R176). -/
def afterSend (j : Index) : Cons :=
  if j.toNat < Config.capacity - 1 then .rSend (j + 1#10) else .rStart

/-- `RSend(j)`, "enabled only when `tx` is": held, with nothing changed, until then (R176, R172). -/
def sendStep (j : Index) (s : State) : State :=
  if s.txReady then
    let (v, s') := s.readChron j
    (s'.send v).setCons (afterSend j)
  else s

/-- `RStart` (R177). -/
def restartStep (s : State) : State := s.startClock.setCons .waitCmd

/-- CMD_R: command decode, poll, stop, send, restart (R173 to R177). -/
def execCmdR (s : State) : Host.Outcome State Fault Refusal :=
  match s.cons with
  | .waitCmd => .next (s.setCons .rPoll)
  | .rPoll => .next (pollStep s)
  | .rStop => .next (stopStep s)
  | .rSend j => .next (sendStep j s)
  | .rStart => .next (restartStep s)
  | .tDig0 | .tDig1 _ | .tDig2 _ _ => .fault .commandInProgress

/-- The last `TDig` step: `duty <- TVAL(acc[0], acc[1], b)`, `cons <- WaitCmd` (R180, R181). -/
def levelStep (d0 d1 b : Byte) (s : State) : State :=
  let (v, s') := s.parseLevel d0 d1 b
  (s'.setDuty v).setCons .waitCmd

/-- CMD_T: command decode and the three `TDig` steps (R173, R180). -/
def execCmdT (d0 d1 d2 : Byte) (s : State) : Host.Outcome State Fault Refusal :=
  match s.cons with
  | .waitCmd => .next (s.setCons .tDig0)
  | .tDig0 => .next (s.setCons (.tDig1 d0))
  | .tDig1 a0 => .next (s.setCons (.tDig2 a0 d1))
  | .tDig2 a0 a1 => .next (levelStep a0 a1 d2 s)
  | .rPoll | .rStop | .rSend _ | .rStart => .fault .commandInProgress

/-- CMD_IGN: "no effect, no response" (R173, R79). -/
def execCmdIgn (_b : Byte) (s : State) : Host.Outcome State Fault Refusal :=
  match s.cons with
  | .waitCmd => .next (s.setCons .waitCmd)
  | .tDig0 | .tDig1 _ | .tDig2 _ _ | .rPoll | .rStop | .rSend _ | .rStart =>
    .fault .commandInProgress

end Sys2Proof.Machine
end

