-- ==== Sys2Proof/Machine/Consumer.lean ====
section
/-! DEFINITION. The meanings of the consumer's interface words (42_consumer_ops.md). The direct consumer's
step past the word is `step`'s (R28). -/
namespace Sys2Proof.Machine

/-- CLK_STOP (R150). -/
def execClkStop (s : State) : Host.Outcome State Fault Refusal := .next s.stopClock

/-- CLK_START (R151). -/
def execClkStart (s : State) : Host.Outcome State Fault Refusal := .next s.startClock

/-- RD_STATUS (R152). -/
def execRdStatus (s : State) : Host.Outcome State Fault Refusal :=
  .next (State.logResult s.readStatus)

/-- RD_PHYS (R153, R159). -/
def execRdPhys (a : Index) (s : State) : Host.Outcome State Fault Refusal :=
  .next (State.logResult (s.readPhys a))

/-- RD_CHRON (R154, R159). -/
def execRdChron (j : Index) (s : State) : Host.Outcome State Fault Refusal :=
  .next (State.logResult (s.readChron j))

/-- RD_HEAD (R155). -/
def execRdHead (s : State) : Host.Outcome State Fault Refusal :=
  .next (State.logResult (s.head, s))

/-- RD_STOP (R156). -/
def execRdStop (s : State) : Host.Outcome State Fault Refusal :=
  .next (State.logResult s.readStop)

/-- RD_HIST (R157). -/
def execRdHist (s : State) : Host.Outcome State Fault Refusal :=
  .next (State.logResult (s.hist, s))

end Sys2Proof.Machine
end

