-- ==== Sys2Proof/Machine/Tick.lean ====
section
/-! DEFINITION. The meaning of TICK (41_capture_tick.md). -/
namespace Sys2Proof.Machine

/-- TICK: the whole tick where it is enabled, stuck where it is not (R120, R121). -/
def execTick (c : Bool) (v : Byte) (s : State) : Host.Outcome State Fault Refusal :=
  if s.tickEnabled then .next (s.tick c v) else .fault .tickNotEnabled

end Sys2Proof.Machine
end

