-- ==== Sys2Proof/Machine/Dispatch.lean ====
section
/-! DEFINITION. The one dispatch from an instruction to its meaning. -/
namespace Sys2Proof.Machine

def exec (i : Instr) (s : State) : Host.Outcome State Fault Refusal :=
  match i with
  | .tick c v => Sys2Proof.Machine.execTick c v s
  | .clkStop => Sys2Proof.Machine.execClkStop s
  | .clkStart => Sys2Proof.Machine.execClkStart s
  | .rdStatus => Sys2Proof.Machine.execRdStatus s
  | .rdPhys a => Sys2Proof.Machine.execRdPhys a s
  | .rdChron j => Sys2Proof.Machine.execRdChron j s
  | .rdHead => Sys2Proof.Machine.execRdHead s
  | .rdStop => Sys2Proof.Machine.execRdStop s
  | .rdHist => Sys2Proof.Machine.execRdHist s
  | .cmdR => Sys2Proof.Machine.execCmdR s
  | .cmdT d0 d1 d2 => Sys2Proof.Machine.execCmdT d0 d1 d2 s
  | .cmdIgn b => Sys2Proof.Machine.execCmdIgn b s

end Sys2Proof.Machine
end

