-- ==== Sys2Proof/WellFormed.lean ====
section
/-! DEFINITION. Which instructions have an encoding, and each one's format, agent and length (R70 to R80). -/
namespace Sys2Proof

/-- The two encoding spaces (R70). -/
inductive Format where
  /-- 16-bit interface words. -/
  | op16
  /-- Serial command bytes. -/
  | cmd8
  deriving DecidableEq, Repr

/-- The agent whose step an instruction is (R74, R18). -/
inductive Agent where
  | tick
  | consumer
  /-- A command of the host that the reference consumer runs. -/
  | hostToConsumer
  deriving DecidableEq, Repr

/-- The encoding space of an instruction (R71, R74). -/
def Instr.format : Instr → Format
  | .tick _ _ | .clkStop | .clkStart | .rdStatus | .rdPhys _ | .rdChron _ | .rdHead | .rdStop
  | .rdHist => .op16
  | .cmdR | .cmdT _ _ _ | .cmdIgn _ => .cmd8

/-- The agent column of R74, and the host for the serial commands (R71). -/
def Instr.agent : Instr → Agent
  | .tick _ _ => .tick
  | .clkStop | .clkStart | .rdStatus | .rdPhys _ | .rdChron _ | .rdHead | .rdStop | .rdHist =>
    .consumer
  | .cmdR | .cmdT _ _ _ | .cmdIgn _ => .hostToConsumer

/-- The length in bytes: an interface word is 16 bits, `'t'` is 4 bytes, every other command 1 (R80). -/
def Instr.byteLength : Instr → Nat
  | .tick _ _ | .clkStop | .clkStart | .rdStatus | .rdPhys _ | .rdChron _ | .rdHead | .rdStop
  | .rdHist => 2
  | .cmdR => 1
  | .cmdT _ _ _ => 4
  | .cmdIgn _ => 1

/-- The operand types admit only what the encodings admit (R75, R76), but for CMD_IGN, whose byte is
none of `'r'` and `'t'` (R71). -/
def Instr.wellFormed : Instr → Bool
  | .tick _ _ | .clkStop | .clkStart | .rdStatus | .rdPhys _ | .rdChron _ | .rdHead | .rdStop
  | .rdHist | .cmdR | .cmdT _ _ _ => true
  | .cmdIgn b => b != Config.cmdDump && b != Config.cmdTrig

end Sys2Proof
end

