-- ==== Sys2Proof/Decode.lean ====
section
/-! DEFINITION. The decoder of both encoding spaces, total and rejecting by name, and the encoder
(30_encoding.md, R70 to R80). -/
namespace Sys2Proof

/-- Why bits are no instruction. -/
inductive Reject where
  /-- `op` is `0x9..0xF` (R78). -/
  | reservedOp
  /-- A TICK word with `w[11:9] != 0` (R78). -/
  | reservedTickBits
  /-- A word without operands with `w[11:0] != 0` (R78). -/
  | reservedOperand
  /-- An RD_PHYS or RD_CHRON word with `w[11:10] != 0` (R78). -/
  | reservedIndexBits
  /-- No command byte (R71). -/
  | noCommandByte
  /-- The byte `'t'` with fewer than its three operand bytes (R71). -/
  | operandBytesMissing
  /-- Bytes beyond the one command asked for (R80). -/
  | trailingBytes
  deriving DecidableEq, Repr

/-- One row of the table of R74: its mnemonic, match and mask. -/
structure Op16Row where
  mnemonic : String
  pat : Word
  mask : Word
  deriving DecidableEq, Repr

def rowTick : Op16Row := ⟨"TICK", 0x0000#16, 0xFE00#16⟩
def rowClkStop : Op16Row := ⟨"CLK_STOP", 0x1000#16, 0xFFFF#16⟩
def rowClkStart : Op16Row := ⟨"CLK_START", 0x2000#16, 0xFFFF#16⟩
def rowRdStatus : Op16Row := ⟨"RD_STATUS", 0x3000#16, 0xFFFF#16⟩
def rowRdPhys : Op16Row := ⟨"RD_PHYS", 0x4000#16, 0xFC00#16⟩
def rowRdChron : Op16Row := ⟨"RD_CHRON", 0x5000#16, 0xFC00#16⟩
def rowRdHead : Op16Row := ⟨"RD_HEAD", 0x6000#16, 0xFFFF#16⟩
def rowRdStop : Op16Row := ⟨"RD_STOP", 0x7000#16, 0xFFFF#16⟩
def rowRdHist : Op16Row := ⟨"RD_HIST", 0x8000#16, 0xFFFF#16⟩

/-- The table of R74, in its order. -/
def op16Rows : List Op16Row :=
  [rowTick, rowClkStop, rowClkStart, rowRdStatus, rowRdPhys, rowRdChron, rowRdHead, rowRdStop,
   rowRdHist]

/-- "A word `w` is the operation of a row exactly when `w & mask == match`" (R74). -/
def Op16Row.covers (r : Op16Row) (w : Word) : Bool := w &&& r.mask == r.pat

/-- `op = w[15:12]` (R74). -/
def opField (w : Word) : BitVec 4 := w.extractLsb' 12 4

/-- `c = w[8]` (R75). -/
def tickBit (w : Word) : Bool := w.getLsbD 8

/-- `s = w[7:0]` (R75). -/
def tickSample (w : Word) : Byte := w.extractLsb' 0 8

/-- `a = w[9:0]` or `j = w[9:0]` (R76). -/
def indexField (w : Word) : Index := w.extractLsb' 0 10

/-- Which reservation of R78 a word that no row covers falls under. -/
def reservedReason (w : Word) : Reject :=
  match (opField w).toNat with
  | 0 => .reservedTickBits
  | 4 => .reservedIndexBits
  | 5 => .reservedIndexBits
  | 1 => .reservedOperand
  | 2 => .reservedOperand
  | 3 => .reservedOperand
  | 6 => .reservedOperand
  | 7 => .reservedOperand
  | 8 => .reservedOperand
  | _ => .reservedOp

/-- The decoder of interface words (R74 to R76, R78). -/
def decodeOp16 (w : Word) : Except Reject Instr :=
  if rowTick.covers w then .ok (.tick (tickBit w) (tickSample w))
  else if rowClkStop.covers w then .ok .clkStop
  else if rowClkStart.covers w then .ok .clkStart
  else if rowRdStatus.covers w then .ok .rdStatus
  else if rowRdPhys.covers w then .ok (.rdPhys (indexField w))
  else if rowRdChron.covers w then .ok (.rdChron (indexField w))
  else if rowRdHead.covers w then .ok .rdHead
  else if rowRdStop.covers w then .ok .rdStop
  else if rowRdHist.covers w then .ok .rdHist
  else .error (reservedReason w)

/-- CMD_T with the operand bytes received or waiting so far, in arrival order. A byte not there yet
stands as 0, and no step reads it before it has arrived (R71: decoding "does not look at what
follows"; DESIGN CHOICE, log entry 10). -/
def cmdTOf (ops : List Byte) : Instr := .cmdT (ops.getD 0 0#8) (ops.getD 1 0#8) (ops.getD 2 0#8)

/-- The command selected by its first byte `b`, with the bytes waiting behind it (R71, R173). -/
def commandOf (b : Byte) (waiting : List Byte) : Instr :=
  if b = Config.cmdDump then .cmdR
  else if b = Config.cmdTrig then cmdTOf waiting
  else .cmdIgn b

/-- The decoder of the host's byte stream: one whole command and the rest of the stream (R71, R72,
R80). -/
def decodeCmd8 : List Byte → Except Reject (Instr × List Byte)
  | [] => .error .noCommandByte
  | b :: rest =>
    if b = Config.cmdDump then .ok (.cmdR, rest)
    else if b = Config.cmdTrig then
      match rest with
      | d0 :: d1 :: d2 :: rest' => .ok (.cmdT d0 d1 d2, rest')
      | _ => .error .operandBytesMissing
    else .ok (.cmdIgn b, rest)

/-- An instruction's bits, in the space of its format (R70). -/
inductive Code where
  | op16 (w : Word)
  | cmd8 (bs : List Byte)
  deriving DecidableEq, Repr

/-- How many bytes an encoding has (R80). -/
def Code.byteLength : Code → Nat
  | .op16 _ => 2
  | .cmd8 bs => bs.length

/-- The decoder of one instruction, in either space. -/
def decode : Code → Except Reject Instr
  | .op16 w => decodeOp16 w
  | .cmd8 bs =>
    match decodeCmd8 bs with
    | .ok (i, []) => .ok i
    | .ok (_, _ :: _) => .error .trailingBytes
    | .error r => .error r

/-- The encoder, from the same table (R74 to R76, R71). -/
def encode : Instr → Code
  | .tick c s => .op16 (zext16 (BitVec.ofBool c ++ s))
  | .clkStop => .op16 rowClkStop.pat
  | .clkStart => .op16 rowClkStart.pat
  | .rdStatus => .op16 rowRdStatus.pat
  | .rdPhys a => .op16 (rowRdPhys.pat ||| zext16 a)
  | .rdChron j => .op16 (rowRdChron.pat ||| zext16 j)
  | .rdHead => .op16 rowRdHead.pat
  | .rdStop => .op16 rowRdStop.pat
  | .rdHist => .op16 rowRdHist.pat
  | .cmdR => .cmd8 [Config.cmdDump]
  | .cmdT d0 d1 d2 => .cmd8 [Config.cmdTrig, d0, d1, d2]
  | .cmdIgn b => .cmd8 [b]

/-- Byte `k` of the bits `w`, byte 0 the least significant (the opcode table's numbering). -/
def tableByte (w k : Nat) : Byte := BitVec.ofNat 8 (w / 256 ^ k)

/-- The space of a row of `nbits` bits: 9 to 16 bits are one interface word, other lengths are command
bytes (R70, R80). DESIGN CHOICE, log entry 16. -/
def tableFormat (nbits : Nat) : Format := if 8 < nbits ∧ nbits ≤ 16 then .op16 else .cmd8

/-- The command bytes of the bits `w`: four for `'t'`, one for every other first byte (R80). -/
def tableCommandBytes (w : Nat) : List Byte :=
  if tableByte w 0 = Config.cmdTrig then
    [tableByte w 0, tableByte w 1, tableByte w 2, tableByte w 3]
  else [tableByte w 0]

/-- The bits `w`, of `nbits` bits in the table, as an encoding. -/
def tableCode (nbits w : Nat) : Code :=
  match tableFormat nbits with
  | .op16 => .op16 (BitVec.ofNat 16 w)
  | .cmd8 => .cmd8 (tableCommandBytes w)

/-- The instruction the decoder reads from the bits `w` as the opcode table numbers them. -/
def decodeTableWord (nbits w : Nat) : Option Instr :=
  match decode (tableCode nbits w) with
  | .ok i => some i
  | .error _ => none

end Sys2Proof
end

