-- ==== Sys2Proof/Machine/Fetch.lean ====
section
/-! DEFINITION. What runs next: the direct consumer's word, or the turn of an agent under the reference
consumer (R58, R158, R170, R206); and placing an instruction where it is fetched. -/
namespace Sys2Proof.Machine

/-- What fetching finds. -/
inductive Fetched where
  /-- An instruction to execute, in the state moved past what was fetched. -/
  | instr (i : Instr) (s : State)
  /-- No instruction: the whole step is the move to `s`. -/
  | moved (s : State)
  | fault (f : Fault)
  | refused (r : Refusal)
  deriving DecidableEq, Repr

/-- The direct consumer: the word at `dpc`, and `dpc` advanced by 1; a reserved word sets `refused` and
does nothing else, and after it there is no further step (R158, R78, R28). -/
def fetchDirect (s : State) : Fetched :=
  if s.refused then .refused .reservedWord
  else
    match s.prog[s.dpc]? with
    | none => .fault .runEnded
    | some w =>
      match decodeOp16 w with
      | .ok i => .instr i s.advanceDpc
      | .error _ => .moved s.markRefused

/-- The reference consumer's turn: a step of the command that `cons` is in. `rx()` takes the first byte
of the stream; with no byte there the consumer is held and its turn passes (R171, R173 to R180). -/
def fetchConsumer (s : State) : Fetched :=
  match s.cons, s.rx with
  | .waitCmd, b :: bs => .instr (commandOf b bs) (s.setRx bs)
  | .tDig0, b :: bs => .instr (cmdTOf (b :: bs)) (s.setRx bs)
  | .tDig1 d0, b :: bs => .instr (cmdTOf (d0 :: b :: bs)) (s.setRx bs)
  | .tDig2 d0 d1, b :: bs => .instr (cmdTOf (d0 :: d1 :: b :: bs)) (s.setRx bs)
  | .waitCmd, [] => .moved s
  | .tDig0, [] => .moved s
  | .tDig1 _, [] => .moved s
  | .tDig2 _ _, [] => .moved s
  | .rPoll, _ => .instr .cmdR s
  | .rStop, _ => .instr .cmdR s
  | .rSend _, _ => .instr .cmdR s
  | .rStart, _ => .instr .cmdR s

/-- One agent's turn. A tick that is not enabled does not happen and is not held for later
(R121, R35, R171, R172, R206). -/
def fetchTurn (t : Turn) (s : State) : Fetched :=
  match t with
  | .tick c v => if s.tickEnabled then .instr (.tick c v) s else .moved s
  | .consumer => fetchConsumer s
  | .hostSend b => .moved (s.hostSend b)
  | .hostAccept => .moved s.hostAccept

/-- What runs next (R158). -/
def fetch (s : State) : Fetched :=
  match s.form with
  | .direct => fetchDirect s
  | .reference => fetchTurn s.takeTurn.1 s.takeTurn.2

/-- The model is given the direct consumer with the list `p` (R158). Log entry 7. -/
def State.withProgram (s : State) (p : List Word) : State :=
  { s with form := .direct, prog := p, dpc := 0, rlog := [] }

/-- `w` as the direct consumer's next word. -/
def State.placeWord (s : State) (w : Word) : State :=
  { s with
    form := .direct
    prog := s.prog.take s.dpc ++ w :: s.prog.drop (s.dpc + 1)
    dpc := (s.prog.take s.dpc).length
    refused := false }

/-- `bs` at the front of the host's stream, with the reference consumer waiting for a command and its
turn next. -/
def State.placeCommand (s : State) (bs : List Byte) : State :=
  { s with
    form := .reference
    cons := .waitCmd
    rx := bs ++ s.rx
    sched := .consumer :: s.sched }

/-- The encoding `c` where the next step fetches it. Log entry 16. -/
def State.placeCode (s : State) (c : Code) : State :=
  match c with
  | .op16 w => s.placeWord w
  | .cmd8 bs => s.placeCommand bs

end Sys2Proof.Machine
end

