-- ==== Sys2Proof/Machine/Step.lean ====
section
/-! DEFINITION. One step of the machine, and an instruction placed where the next step fetches it. -/
namespace Sys2Proof.Machine

/-- The step that what was fetched stands for. -/
def runFetched (f : Fetched) : Host.Outcome State Fault Refusal :=
  match f with
  | .instr i s => exec i s
  | .moved s => .next s
  | .fault r => .fault r
  | .refused r => .refused r

/-- One atomic step of one agent (R58). -/
def step (s : State) : Host.Outcome State Fault Refusal := runFetched (fetch s)

/-- `s` with the instruction of the bits `w` stored where `step` fetches its next instruction. -/
def State.withFetchWord (s : State) (nbits w : Nat) : State := s.placeCode (tableCode nbits w)

end Sys2Proof.Machine
end

