-- ==== Sys2Proof/Machine/Trace.lean ====
section
/-! DEFINITION. The trace form of a run's inputs: the lines of R81, the pseudo-instructions of R82, and
what they assemble to for the direct consumer (R158) and for the host (R81). -/
namespace Sys2Proof.Machine

/-- One line of a trace (R81, R82). -/
inductive TraceLine where
  /-- One interface word by its own name (R81). -/
  | one (i : Instr)
  /-- `ticks n, s, c` (R82). -/
  | ticks (n : Nat) (s : Byte) (c : Bool)
  /-- `lows n` (R82). -/
  | lows (n : Nat)
  /-- `highs n` (R82). -/
  | highs (n : Nat)
  /-- `readwin` (R82). -/
  | readwin
  /-- `host …`: bytes the host sends, in order (R81). -/
  | host (bs : List Byte)
  deriving DecidableEq, Repr

/-- `rdc 0`, `rdc 1`, …, `rdc 1023` (R82). -/
def windowReads : List Instr :=
  (List.range Config.capacity).map fun j => .rdChron (BitVec.ofNat 10 j)

/-- A line's exact expansion into instructions (R82). -/
def TraceLine.expand : TraceLine → List Instr
  | .one i => [i]
  | .ticks n s c => List.replicate n (.tick c s)
  | .lows n => List.replicate n (.tick false 0x00#8)
  | .highs n => List.replicate n (.tick true 0x00#8)
  | .readwin => .clkStop :: (windowReads ++ [.clkStart])
  | .host _ => []

/-- The words of an encoding; a command has none. -/
def Code.words : Code → List Word
  | .op16 w => [w]
  | .cmd8 _ => []

/-- The direct consumer's list (R158). -/
def assemble (ls : List TraceLine) : List Word :=
  ls.flatMap fun l => l.expand.flatMap fun i => Code.words (encode i)

/-- The bytes the host sends (R81). -/
def hostBytes (ls : List TraceLine) : List Byte :=
  ls.flatMap fun l => match l with
    | .host bs => bs
    | .one _ | .ticks _ _ _ | .lows _ | .highs _ | .readwin => []

/-! The written form (R81). What the spec leaves open of it is the model's choice: log entry 19. -/

/-- The part of a line before the comment sign (R81). -/
def dropComment (cs : List Char) : List Char := cs.takeWhile (· != ';')

/-- What separates the words of a line: a blank, a tab or a comma, in any number, before the first word,
between two words and behind the last, in every kind of line (DESIGN CHOICE, log entry 19). -/
def isSeparator (c : Char) : Bool := c == ' ' || c == ',' || c == '\t'

/-- The words of a line (log entry 19). -/
def tokens : List Char → List Char → List (List Char)
  | [], [] => []
  | t :: ts, [] => [(t :: ts).reverse]
  | t, c :: cs =>
    if isSeparator c then
      match t with
      | [] => tokens [] cs
      | x :: xs => (x :: xs).reverse :: tokens [] cs
    else tokens (c :: t) cs

/-- One hexadecimal digit (R10), of either case (DESIGN CHOICE, log entry 19). -/
def hexDigit (c : Char) : Option Nat :=
  if '0'.toNat ≤ c.toNat ∧ c.toNat ≤ '9'.toNat then some (c.toNat - '0'.toNat)
  else if 'a'.toNat ≤ c.toNat ∧ c.toNat ≤ 'f'.toNat then some (c.toNat - 'a'.toNat + 10)
  else if 'A'.toNat ≤ c.toNat ∧ c.toNat ≤ 'F'.toNat then some (c.toNat - 'A'.toNat + 10)
  else none

/-- Digits in a base, the most significant first. -/
def digitsIn (base : Nat) : Nat → List Char → Option Nat
  | acc, [] => some acc
  | acc, c :: cs =>
    match hexDigit c with
    | some d => if d < base then digitsIn base (base * acc + d) cs else none
    | none => none

/-- A literal: `0x..` hexadecimal, `0b..` binary, others decimal (R10). -/
def numeral : List Char → Option Nat
  | '0' :: 'x' :: c :: cs => digitsIn 16 0 (c :: cs)
  | '0' :: 'b' :: c :: cs => digitsIn 2 0 (c :: cs)
  | c :: cs => digitsIn 10 0 (c :: cs)
  | [] => none

/-- A literal below a bound. -/
def numeralBelow (bound : Nat) (cs : List Char) : Option Nat :=
  match numeral cs with
  | some n => if n < bound then some n else none
  | none => none

/-- `s` in `0..255` (R81). -/
def sampleArg (cs : List Char) : Option Byte := (numeralBelow 256 cs).map (BitVec.ofNat 8)

/-- `c` in 0, 1 (R81). -/
def bitArg (cs : List Char) : Option Bool := (numeralBelow 2 cs).map (· == 1)

/-- An index in `0..1023` (R76). -/
def indexArg (cs : List Char) : Option Index := (numeralBelow 1024 cs).map (BitVec.ofNat 10)

/-- The quotation mark. -/
def quoteChar : Char := Char.ofNat 0x22

/-- The byte that a character of a quoted string stands for: its ASCII code. The spec gives the codes of
the characters of G1 to G3 alone; every other one is PRESUMED, and a character above `0x7F` stands for
none. Log entry 19. -/
def charByte (c : Char) : Option Byte :=
  if c.toNat < 0x80 then some (BitVec.ofNat 8 c.toNat) else none

/-- The bytes up to the closing quotation mark, and the characters behind it; none if it never comes
(DESIGN CHOICE, log entry 19). -/
def quotedBytes : List Char → Option (List Byte × List Char)
  | [] => none
  | c :: cs =>
    if c == quoteChar then some ([], cs)
    else do
      let b ← charByte c
      let (bs, rest) ← quotedBytes cs
      return (b :: bs, rest)

/-- Only separators and a comment are left on the line (log entry 19). -/
def lineEnds (cs : List Char) : Bool := (dropComment cs).all isSeparator

/-- The bytes of `host`'s argument: a quoted string, or one literal (R81). Inside the quotation marks
every character is part of the string, the comment sign too. Log entry 19. -/
def hostArg (cs : List Char) : Option (List Byte) :=
  match cs.dropWhile isSeparator with
  | c :: rest =>
    if c == quoteChar then
      match quotedBytes rest with
      | some (bs, left) => if lineEnds left then some bs else none
      | none => none
    else
      match tokens [] (dropComment (c :: rest)) with
      | [t] => (sampleArg t).map fun b => [b]
      | _ => none
  | [] => none

/-- What stands behind the word `host` and the separator it needs; none if the line begins otherwise
(DESIGN CHOICE, log entry 19). -/
def afterHost : List Char → Option (List Char)
  | 'h' :: 'o' :: 's' :: 't' :: c :: cs => if isSeparator c then some cs else none
  | _ => none

/-- One written line: none if it is no line of R81 or R82. What the rules leave open of its layout is
settled in `isSeparator`, `afterHost`, `quotedBytes` and `charByte` (log entry 19). -/
def parseLine (line : List Char) : Option TraceLine :=
  match afterHost (line.dropWhile isSeparator) with
  | some rest => (hostArg rest).map .host
  | none =>
    match tokens [] (dropComment line) with
    | ['t', 'i', 'c', 'k'] :: [s, c] => do
      let s ← sampleArg s
      let c ← bitArg c
      return .one (.tick c s)
    | [['s', 't', 'o', 'p']] => some (.one .clkStop)
    | [['s', 't', 'a', 'r', 't']] => some (.one .clkStart)
    | [['s', 't', 'a', 't', 'u', 's']] => some (.one .rdStatus)
    | ['r', 'd', 'p'] :: [a] => (indexArg a).map fun a => .one (.rdPhys a)
    | ['r', 'd', 'c'] :: [j] => (indexArg j).map fun j => .one (.rdChron j)
    | [['r', 'd', 'h', 'e', 'a', 'd']] => some (.one .rdHead)
    | [['r', 'd', 's', 't', 'o', 'p']] => some (.one .rdStop)
    | [['r', 'd', 'h', 'i', 's', 't']] => some (.one .rdHist)
    | ['t', 'i', 'c', 'k', 's'] :: [n, s, c] => do
      let n ← numeral n
      let s ← sampleArg s
      let c ← bitArg c
      return .ticks n s c
    | ['l', 'o', 'w', 's'] :: [n] => (numeral n).map .lows
    | ['h', 'i', 'g', 'h', 's'] :: [n] => (numeral n).map .highs
    | [['r', 'e', 'a', 'd', 'w', 'i', 'n']] => some .readwin
    | _ => none

end Sys2Proof.Machine
end

