-- ==== Sys2Proof/Safety.lean ====
section
/-! DEFINITION. What claims are stated with: the machine's invariant (R36), the kept protocol (R29), runs
of ticks (R14), the window (R17, R132), a dump in progress (R178) and fair runs (R213). -/
namespace Sys2Proof.Machine

/-! The invariant (10_state.md, R36). -/

/-- `(p - head) mod N` is below `HALF` while armed (R36, item 2). -/
def State.stopAhead (s : State) : Prop :=
  ∀ p, s.st = .armed p → (p.toNat + Config.capacity - s.head.toNat) % Config.capacity < Config.half.toNat

/-- The positions at which the reference consumer holds the clock stopped (R36, item 4). -/
def Cons.clockStopped : Cons → Bool
  | .rSend _ | .rStart => true
  | .waitCmd | .tDig0 | .tDig1 _ | .tDig2 _ _ | .rPoll | .rStop => false

/-- What holds of the reference consumer's position: the clock is stopped exactly in `RSend(_)` and
`RStart` (R36, item 4), `obs_frozen` is set exactly in `RStop` (R29), and neither `refused` nor
`unsync_read` is ever set. -/
structure State.ConsInv (s : State) : Prop where
  clock : s.clkEn = !s.cons.clockStopped
  obs : s.obsFrozen = true ↔ s.cons = .rStop
  notRefused : s.refused = false
  synced : s.unsyncRead = false

/-- The invariant of the machine: the buffer's canonical form, the stop index ahead of `head` (R36,
item 2), no late tick while the clock runs and never more than `STOP_LATE_TICKS` (R37), the direct
consumer not past its list's end (R158), and the reference consumer's position (R36, item 4). -/
structure State.Inv (s : State) : Prop where
  bufWf : Memory.wf s.buf = true
  stopAhead : s.stopAhead
  lateBound : s.late ≤ Config.stopLateTicks
  lateRunning : s.clkEn = true → s.late = 0
  dpcBound : s.form = .direct → s.dpc ≤ s.prog.length
  consumer : s.form = .reference → s.ConsInv

/-- No protocol breach and no refusal has happened (R29): a safe run. -/
def State.protocolKept (s : State) : Bool := !s.refused && !s.unsyncRead && !s.freezeLost

/-! What belongs to whom (R59). -/

/-- The tick alone writes these: `buf`, `head`, `hist`, `st` (R59). -/
structure SameCore (s t : State) : Prop where
  buf : t.buf = s.buf
  head : t.head = s.head
  hist : t.hist = s.hist
  st : t.st = s.st

/-- The consumer's registers, position, lists and streams, which a tick leaves as they are (R59,
R204). -/
structure SameConsumer (s t : State) : Prop where
  clkEn : t.clkEn = s.clkEn
  duty : t.duty = s.duty
  form : t.form = s.form
  cons : t.cons = s.cons
  prog : t.prog = s.prog
  dpc : t.dpc = s.dpc
  rlog : t.rlog = s.rlog
  refused : t.refused = s.refused
  unsyncRead : t.unsyncRead = s.unsyncRead
  obsFrozen : t.obsFrozen = s.obsFrozen
  rx : t.rx = s.rx
  tx : t.tx = s.tx
  txReady : t.txReady = s.txReady
  sched : t.sched = s.sched
  draws : t.draws = s.draws

/-! Runs of ticks (R14): `c_t` and `s_t` of each, in order. -/

/-- The ticks of a list, one after another, as long as each is enabled. -/
def runTicks : List (Bool × Byte) → State → Host.Outcome State Fault Refusal
  | [], s => .next s
  | (c, v) :: ts, s =>
    match exec (.tick c v) s with
    | .next t => runTicks ts t
    | .fault f => .fault f
    | .refused r => .refused r

/-- The tick `(c, v)` taken in `s` arms (R17). -/
def ArmsAt (s : State) (c : Bool) (v : Byte) (t : State) : Prop :=
  exec (.tick c v) s = .next t ∧ s.st = .idle ∧ t.st ≠ .idle

/-! The window (R17). -/

/-- Chronological position `j` of the window: `buf[(head + j) mod N]` (R132, R154). -/
def State.windowCell (s : State) (j : Nat) : Option Byte :=
  Memory.read s.buf ((s.head.toNat + j) % Config.capacity)

/-- Every cell has been written (R36, item 5). -/
def State.allWritten (s : State) : Prop := ∀ j, j < Config.capacity → (s.windowCell j).isSome = true

/-- The first `k` bytes of the window, oldest first (R73); an `Unwritten` cell has no byte here. -/
def State.windowBytes (s : State) (k : Nat) : List Byte := (List.range k).filterMap s.windowCell

/-- A dump in progress, of a response that follows the bytes `sent` (R176, R178): the clock is stopped,
no late tick is left, and the host has been sent the window's first `j` bytes. -/
def DumpInProgress (sent : List Byte) (s : State) : Prop :=
  s.form = .reference ∧ s.clkEn = false ∧ s.late = 0 ∧ s.allWritten ∧
  ((∃ j, s.cons = .rSend j ∧ s.tx = sent ++ s.windowBytes j.toNat) ∨
   (s.cons = .rStart ∧ s.tx = sent ++ s.windowBytes Config.capacity))

/-! Fair runs under the reference consumer (R213). The model assumes no fairness; a claim may take it as
a premise. Log entry 15. -/

/-- The step in which the agent of the turn `t` moves (R58). -/
def turnStep (t : Turn) (s : State) : Host.Outcome State Fault Refusal := runFetched (fetchTurn t s)

/-- An infinite run in which the `n`-th turn is `e n`. -/
def IsRun (e : Nat → Turn) (r : Nat → State) : Prop := ∀ n, turnStep (e n) (r n) = .next (r (n + 1))

/-- Whether the reference consumer's next step is enabled (R171, R172). -/
def State.consumerEnabled (s : State) : Bool :=
  match s.cons with
  | .waitCmd | .tDig0 | .tDig1 _ | .tDig2 _ _ => !s.rx.isEmpty
  | .rSend _ => s.txReady
  | .rPoll | .rStop | .rStart => true

/-- "While `clk_en == 1`, a tick eventually runs" (R213). -/
def TicksFair (e : Nat → Turn) (r : Nat → State) : Prop :=
  ∀ n, (∀ m, n ≤ m → (r m).clkEn = true) → ∃ m c v, n ≤ m ∧ e m = .tick c v

/-- "An enabled consumer step eventually runs" (R213). -/
def ConsumerFair (e : Nat → Turn) (r : Nat → State) : Prop :=
  ∀ n, (∀ m, n ≤ m → (r m).consumerEnabled = true) → ∃ m, n ≤ m ∧ e m = .consumer

/-- "The host eventually accepts each sent byte" (R213). -/
def HostFair (e : Nat → Turn) (r : Nat → State) : Prop :=
  ∀ n j, (∀ m, n ≤ m → (r m).cons = .rSend j ∧ (r m).txReady = false) →
    ∃ m, n ≤ m ∧ e m = .hostAccept

/-- Weak fairness (R213). -/
structure WeaklyFair (e : Nat → Turn) (r : Nat → State) : Prop where
  ticks : TicksFair e r
  consumer : ConsumerFair e r
  host : HostFair e r

end Sys2Proof.Machine
end

