-- ==== Sys2Proof/Certificates/Slice0/Obligations.lean ====
section
/-! DEFINITION. The statements for the provers. Each docstring names the rules of spec/ it formalises. -/

open Sys2Proof Sys2Proof.Machine

/-! ## Encoding (30_encoding.md) -/

/-- Decoding the encoding of a well-formed instruction gives it back, whatever its operands
(30_encoding.md sections 2 and 3). -/
def Obligations.DecodeOfEncode : Prop :=
  ∀ i : Instr, i.wellFormed = true → decode (encode i) = .ok i

/-- Every encoding that decodes is the encoding of the well-formed instruction it decodes to: no two
encodings mean the same, and no bit is ignored (30_encoding.md sections 2, 3 and 4). -/
def Obligations.EncodeOfDecode : Prop :=
  ∀ (c : Code) (i : Instr), decode c = .ok i → encode i = c ∧ i.wellFormed = true

/-- Words written out in the spec decode to what they stand for (95_test_vectors.md section 2.5,
30_encoding.md section 2). -/
def Obligations.SpecWordsDecode : Prop :=
  decodeOp16 0x0180#16 = .ok (.tick true 0x80#8) ∧ decodeOp16 0x000A#16 = .ok (.tick false 0x0A#8) ∧
  decodeOp16 0x4005#16 = .ok (.rdPhys 5#10) ∧ decodeOp16 0x51FF#16 = .ok (.rdChron 511#10) ∧
  decodeOp16 0x53FF#16 = .ok (.rdChron 1023#10) ∧ decodeOp16 0x1000#16 = .ok .clkStop ∧
  decodeOp16 0x8000#16 = .ok .rdHist ∧
  decode (.cmd8 [0x72#8]) = .ok .cmdR ∧
  decode (.cmd8 [0x74#8, 0x31#8, 0x32#8, 0x38#8]) = .ok (.cmdT 0x31#8 0x32#8 0x38#8) ∧
  decode (.cmd8 [0x52#8]) = .ok (.cmdIgn 0x52#8)

/-- The nine rows have the match and mask of R74, no two of them cover one word, and a word decodes
exactly when some row covers it (R74). -/
def Obligations.OneRowCoversEachWord : Prop :=
  op16Rows.map (fun r => (r.mnemonic, r.pat, r.mask)) =
    [("TICK", 0x0000#16, 0xFE00#16), ("CLK_STOP", 0x1000#16, 0xFFFF#16),
     ("CLK_START", 0x2000#16, 0xFFFF#16), ("RD_STATUS", 0x3000#16, 0xFFFF#16),
     ("RD_PHYS", 0x4000#16, 0xFC00#16), ("RD_CHRON", 0x5000#16, 0xFC00#16),
     ("RD_HEAD", 0x6000#16, 0xFFFF#16), ("RD_STOP", 0x7000#16, 0xFFFF#16),
     ("RD_HIST", 0x8000#16, 0xFFFF#16)] ∧
  ∀ w : Word,
    (∀ r ∈ op16Rows, ∀ r' ∈ op16Rows, w &&& r.mask = r.pat → w &&& r'.mask = r'.pat → r = r') ∧
    ((∃ i, decodeOp16 w = .ok i) ↔ ∃ r ∈ op16Rows, w &&& r.mask = r.pat)

/-- Which words are reserved, and that a reserved word sets `refused`, has no other effect, and is
followed by no further step of that agent (R78). -/
def Obligations.ReservedWordsAreRefused : Prop :=
  ∀ w : Word,
    (decodeOp16 w = .error .reservedOp ↔ 9 ≤ w.toNat / 4096) ∧
    (decodeOp16 w = .error .reservedTickBits ↔ w.toNat / 4096 = 0 ∧ w.toNat / 512 % 8 ≠ 0) ∧
    (decodeOp16 w = .error .reservedOperand ↔
      w.toNat / 4096 ∈ [1, 2, 3, 6, 7, 8] ∧ w.toNat % 4096 ≠ 0) ∧
    (decodeOp16 w = .error .reservedIndexBits ↔
      w.toNat / 4096 ∈ [4, 5] ∧ w.toNat / 1024 % 4 ≠ 0) ∧
    (∀ r, decodeOp16 w = .error r →
      r ∈ [Reject.reservedOp, .reservedTickBits, .reservedOperand, .reservedIndexBits] ∧
      ∀ s : State, s.form = .direct → s.refused = false → s.prog[s.dpc]? = some w →
        step s = .next { s with refused := true } ∧
        step { s with refused := true } = .refused .reservedWord)

/-- A command is selected by its first byte; `'t'` takes the three bytes after it whatever they are
(R71). -/
def Obligations.CommandByteSelects : Prop :=
  (∀ rest, decodeCmd8 (0x72#8 :: rest) = .ok (.cmdR, rest)) ∧
  (∀ d0 d1 d2 rest, decodeCmd8 (0x74#8 :: d0 :: d1 :: d2 :: rest) = .ok (.cmdT d0 d1 d2, rest)) ∧
  (∀ (b : Byte) rest, b ≠ 0x72#8 → b ≠ 0x74#8 → decodeCmd8 (b :: rest) = .ok (.cmdIgn b, rest))

/-- The pseudo-instructions expand as R82 says. -/
def Obligations.PseudoInstructionsExpand : Prop :=
  (∀ n s c, (TraceLine.ticks n s c).expand = List.replicate n (.tick c s)) ∧
  (∀ n, (TraceLine.lows n).expand = (TraceLine.ticks n 0#8 false).expand) ∧
  (∀ n, (TraceLine.highs n).expand = (TraceLine.ticks n 0#8 true).expand) ∧
  TraceLine.readwin.expand.length = 1026 ∧
  TraceLine.readwin.expand[0]? = some .clkStop ∧
  (∀ j : Index, TraceLine.readwin.expand[j.toNat + 1]? = some (.rdChron j)) ∧
  TraceLine.readwin.expand[1025]? = some .clkStart

/-! ## Reset and the register view (10_state.md, 70_reset_and_hazards.md) -/

/-- What RESET leaves (R230), for every value of the two OPEN parameters. -/
def Obligations.ResetLeaves : Prop :=
  ∀ h d : Byte, (∃ h' d' : Byte, State.reset = State.resetWith h' d') ∧
    (∀ a : Nat, Memory.read (State.resetWith h d).buf a = none) ∧
    (State.resetWith h d).head = 0#10 ∧ (State.resetWith h d).hist = h ∧
    (State.resetWith h d).st = .idle ∧ (State.resetWith h d).clkEn = true ∧
    (State.resetWith h d).duty = d ∧ (State.resetWith h d).late = 0 ∧
    (State.resetWith h d).cons = .waitCmd ∧ (State.resetWith h d).dpc = 0 ∧
    (State.resetWith h d).rlog = [] ∧ (State.resetWith h d).refused = false ∧
    (State.resetWith h d).unsyncRead = false ∧ (State.resetWith h d).freezeLost = false ∧
    (State.resetWith h d).obsFrozen = false

/-- The register view at reset: STATUS is `0b00000100`, HEAD 0, STOP a draw, CLKEN 1
(10_state.md section 5). -/
def Obligations.RegisterViewAtReset : Prop :=
  ∀ h d : Byte,
    (State.resetWith h d).regBits .status = some 0b00000100#16 ∧
    (State.resetWith h d).regBits .head = some 0#16 ∧ (State.resetWith h d).regBits .stop = none ∧
    (State.resetWith h d).regBits .hist = some (h.zeroExtend 16) ∧
    (State.resetWith h d).regBits .clkEn = some 1#16 ∧
    (State.resetWith h d).regBits .duty = some (d.zeroExtend 16)

/-- `st_code` and `stop_reg` hold the trigger state, and `0b11` stands for none (R25). -/
def Obligations.TriggerCodeRoundTrip : Prop :=
  Trigger.idle.code = 0b00#2 ∧ (∀ p, (Trigger.armed p).code = 0b01#2) ∧
  Trigger.frozen.code = 0b10#2 ∧
  (∀ stopReg, Trigger.ofCode 0b00#2 stopReg = some .idle) ∧
  (∀ p, Trigger.ofCode 0b01#2 p = some (.armed p)) ∧
  (∀ stopReg, Trigger.ofCode 0b10#2 stopReg = some .frozen) ∧
  (∀ stopReg, Trigger.ofCode 0b11#2 stopReg = none)

/-! ## The qualifier (40_qualifier.md) -/

/-- QUALIFY fires exactly when Idle, eight lows behind and a high now (R100). -/
def Obligations.QualifyFires : Prop :=
  ∀ (h : Byte) (st : Trigger) (c : Bool),
    qualify h st c = true ↔ st = .idle ∧ h = 0x00#8 ∧ c = true

/-- HIST_SHIFT doubles, adds the new bit and drops the old bit 7 (R102). -/
def Obligations.HistShiftIsDoubling : Prop :=
  ∀ (h : Byte) (c : Bool), (histShift h c).toNat = (2 * h.toNat + c.toNat) % 256

/-- The history after any number of ticks: the last ticks' bits, the newest in position 0, and above
them what was there before, shifted up (40_qualifier.md section 1). -/
def Obligations.HistoryAfterTicks : Prop :=
  ∀ (s : State) (ts : List (Bool × Byte)), s.clkEn = true →
    ∃ u, runTicks ts s = .next u ∧
      ∀ i, i < 8 → u.hist.getLsbD i =
        if i < ts.length then (((ts.reverse)[i]?).map Prod.fst).getD false
        else s.hist.getLsbD (i - ts.length)

/-- A tick arms only on a high after eight lows, and from Idle it does (40_qualifier.md section 1). -/
def Obligations.ArmsExactlyAfterEightLows : Prop :=
  ∀ (s u : State) (ts : List (Bool × Byte)) (c : Bool) (v : Byte), s.clkEn = true → 8 ≤ ts.length →
    runTicks ts s = .next u → u.st = .idle →
    ((∃ w, ArmsAt u c v w) ↔ c = true ∧ ∀ k, k < 8 → ((ts.reverse)[k]?).map Prod.fst = some false)

/-- The debounce from reset holds exactly when bit 0 of `HIST_RESET` is 1 (40_qualifier.md section 1,
90_conflicts.md C9). -/
def Obligations.DebounceFromReset : Prop :=
  ∀ h d : Byte,
    h.getLsbD 0 = true ↔
    ∀ (ts : List (Bool × Byte)) (v : Byte), ts.length < 8 → (∀ x ∈ ts, x.1 = false) →
      ∃ u, runTicks (ts ++ [(true, v)]) (State.resetWith h d) = .next u ∧ u.st = .idle

/-- Eight lows and then a high arm at the tick of the high, from any Idle state
(40_qualifier.md section 1, 90_conflicts.md C12). -/
def Obligations.EightLowsThenHighArms : Prop :=
  ∀ (s : State) (ts : List (Bool × Byte)) (v : Byte), s.clkEn = true → s.st = .idle →
    ts.length = 8 → (∀ x ∈ ts, x.1 = false) →
    ∃ u, runTicks (ts ++ [(true, v)]) s = .next u ∧
      u.st = .armed (BitVec.ofNat 10 ((s.head.toNat + 8 + 512) % 1024))

/-- After a high tick nothing arms for eight ticks, and at the ninth only if those eight were low
(40_qualifier.md section 1). -/
def Obligations.NoRetriggerOnLevel : Prop :=
  ∀ (s t : State) (v : Byte) (ts : List (Bool × Byte)), s.clkEn = true →
    exec (.tick true v) s = .next t →
    ∃ u, runTicks ts t = .next u ∧
      (ts.length < 8 → ∀ c v' w, ¬ArmsAt u c v' w) ∧
      (ts.length = 8 → ∀ c v' w, ArmsAt u c v' w → c = true ∧ ∀ x ∈ ts, x.1 = false)

/-! ## The tick (41_capture_tick.md) -/

/-- TICK is enabled exactly when the clock runs or a late tick is allowed, spends the allowance when
the clock is stopped, and otherwise is no step: a trace is stuck there (R121). -/
def Obligations.TickEnabledExactly : Prop :=
  ∀ (s : State) (c : Bool) (v : Byte),
    ((s.clkEn = true ∨ 0 < s.late) → ∃ t, exec (.tick c v) s = .next t ∧
      t.late = if s.clkEn then s.late else s.late - 1) ∧
    (s.clkEn = false → s.late = 0 → exec (.tick c v) s = .fault .tickNotEnabled ∧
      ∀ w, s.form = .direct → s.refused = false → s.prog[s.dpc]? = some w →
        decodeOp16 w = .ok (.tick c v) → step s = .fault .tickNotEnabled)

/-- Step 1: the sample is stored at `head` in every trigger state, and no other cell changes (R122). -/
def Obligations.TickStoresSample : Prop :=
  ∀ (s : State) (c : Bool) (v : Byte), (s.clkEn = true ∨ 0 < s.late) →
    ∃ t, exec (.tick c v) s = .next t ∧
      Memory.read t.buf s.head.toNat = some v ∧
      ∀ a, a ≠ s.head.toNat → Memory.read t.buf a = Memory.read s.buf a

/-- Steps 2, 3 and 4: clear, freeze, arm, in this priority, every other case leaving the trigger state
unchanged (R123, R124, R125, R128). -/
def Obligations.TickMovesTrigger : Prop :=
  ∀ (s : State) (c : Bool) (v : Byte), (s.clkEn = true ∨ 0 < s.late) →
    ∃ t, exec (.tick c v) s = .next t ∧
      (s.st = .frozen → t.st = .idle) ∧
      (∀ p, s.st = .armed p → s.head = p → t.st = .frozen) ∧
      (∀ p, s.st = .armed p → s.head ≠ p → t.st = .armed p) ∧
      (s.st = .idle → s.hist = 0x00#8 → c = true →
        t.st = .armed (BitVec.ofNat 10 ((s.head.toNat + 512) % 1024))) ∧
      (s.st = .idle → (s.hist ≠ 0x00#8 ∨ c = false) → t.st = .idle)

/-- Steps 5 and 6, unconditional (R126, R127). -/
def Obligations.TickAdvancesAndShifts : Prop :=
  ∀ (s : State) (c : Bool) (v : Byte), (s.clkEn = true ∨ 0 < s.late) →
    ∃ t, exec (.tick c v) s = .next t ∧
      t.head.toNat = (s.head.toNat + 1) % 1024 ∧
      t.hist.toNat = (2 * s.hist.toNat + c.toNat) % 256

/-- The mark `freeze_lost` is set by a tick that clears a freeze the consumer has seen, and changes
nothing else (R135). -/
def Obligations.TickMarksLostFreeze : Prop :=
  ∀ (s : State) (c : Bool) (v : Byte), (s.clkEn = true ∨ 0 < s.late) →
    ∃ t, exec (.tick c v) s = .next t ∧
      (s.st = .frozen → s.obsFrozen = true → t.freezeLost = true) ∧
      ((s.st ≠ .frozen ∨ s.obsFrozen = false) → t.freezeLost = s.freezeLost) ∧
      ∀ o t', exec (.tick c v) { s with obsFrozen := o } = .next t' →
        { t' with freezeLost := t.freezeLost, obsFrozen := t.obsFrozen } = t

/-- The tick's frame: it saves nothing and changes nothing of the consumer: `cons`, `dpc`, `rlog`, the
clock, the duty register, the streams and the other marks are as they were (R204). -/
def Obligations.TickFrame : Prop :=
  ∀ (s : State) (c : Bool) (v : Byte), (s.clkEn = true ∨ 0 < s.late) →
    ∃ t, exec (.tick c v) s = .next t ∧ SameConsumer s t

/-- From the arm tick on, 511 further ticks leave the trigger armed and the 512th freezes, with `head`
one past the stop index (41_capture_tick.md section 3). -/
def Obligations.ArmToFreezeDistance : Prop :=
  ∀ (s t : State) (c : Bool) (v : Byte) (ts : List (Bool × Byte)), s.clkEn = true →
    ArmsAt s c v t → ts.length ≤ 512 →
    ∃ u, runTicks ts t = .next u ∧
      (ts.length < 512 → u.st = .armed (BitVec.ofNat 10 ((s.head.toNat + 512) % 1024))) ∧
      (ts.length = 512 → u.st = .frozen ∧ u.head.toNat = (s.head.toNat + 513) % 1024)

/-- `Frozen` lasts one tick: the tick after it clears it whatever its inputs (41_capture_tick.md section
3). -/
def Obligations.FrozenLastsOneTick : Prop :=
  ∀ (s t : State) (c : Bool) (v : Byte), (s.clkEn = true ∨ 0 < s.late) → s.st ≠ .frozen →
    exec (.tick c v) s = .next t → t.st = .frozen →
    s.st = .armed s.head ∧
    ∀ c' v' u, exec (.tick c' v') t = .next u → u.st = .idle

/-- Triggers are at least 514 ticks apart: none of the 512 ticks after an arm tick, nor the one after
them, can arm; the next one arms exactly on a high after eight lows (41_capture_tick.md section 3,
70_reset_and_hazards.md section 2). -/
def Obligations.TriggersAtLeast514Apart : Prop :=
  ∀ (s t : State) (c : Bool) (v : Byte) (ts : List (Bool × Byte)), s.clkEn = true →
    ArmsAt s c v t →
    ∃ u, runTicks ts t = .next u ∧
      (ts.length < 513 → ∀ c' v' w, ¬ArmsAt u c' v' w) ∧
      (ts.length = 513 → u.st = .idle ∧ ∀ c' v', (∃ w, ArmsAt u c' v' w) ↔
        c' = true ∧ ∀ k, k < 8 → ((ts.reverse)[k]?).map Prod.fst = some false)

/-- The window after any number of ticks: position `j` holds the sample of tick `T - N + j` where there
is one, and otherwise what stood `T` positions further on (41_capture_tick.md section 3). -/
def Obligations.WindowAfterTicks : Prop :=
  ∀ (s : State) (ts : List (Bool × Byte)), s.clkEn = true →
    ∃ u, runTicks ts s = .next u ∧ u.head.toNat = (s.head.toNat + ts.length) % 1024 ∧
      ∀ j, j < 1024 → u.windowCell j =
        if 1024 ≤ ts.length + j then (ts[ts.length + j - 1024]?).map Prod.snd
        else s.windowCell (ts.length + j)

/-- The frozen window: the trigger sample at position 511, the 512 samples after it behind it, and
before it what had been stored before (41_capture_tick.md section 3, 90_conflicts.md C6). -/
def Obligations.FrozenWindowIsCentred : Prop :=
  ∀ (s t : State) (c : Bool) (v : Byte) (ts : List (Bool × Byte)), s.clkEn = true →
    ArmsAt s c v t → ts.length = 512 →
    ∃ u, runTicks ts t = .next u ∧ u.st = .frozen ∧ u.windowCell 511 = some v ∧
      (∀ k, k < 512 → u.windowCell (512 + k) = (ts[k]?).map Prod.snd) ∧
      (∀ k, k < 511 → u.windowCell k = s.windowCell (k + 513))

/-! ## The consumer's operations (42_consumer_ops.md) -/

/-- CLK_STOP (R150): encoding, effect, frame, and the corner case of a stopped clock. -/
def Obligations.ClkStopStopsTheClock : Prop :=
  decodeOp16 0x1000#16 = .ok .clkStop ∧
  ∀ s : State,
    exec .clkStop s = .next { s with
      late := if s.clkEn then Config.stopLateTicks else s.late, clkEn := false, obsFrozen := false } ∧
    (s.clkEn = false → exec .clkStop s = .next { s with obsFrozen := false })

/-- CLK_START (R151): encoding, effect, frame, and the corner case of a running clock. -/
def Obligations.ClkStartRestartsTheClock : Prop :=
  decodeOp16 0x2000#16 = .ok .clkStart ∧
  ∀ s : State,
    exec .clkStart s = .next { s with clkEn := true, late := 0 } ∧
    (s.clkEn = true → s.late = 0 → exec .clkStart s = .next s)

/-- RD_STATUS (R152): the result `4*CLKEN + 2*ARMED + FROZEN`, `obs_frozen` its bit 0, and the frame. -/
def Obligations.RdStatusReads : Prop :=
  decodeOp16 0x3000#16 = .ok .rdStatus ∧
  ∀ s : State, ∃ r : Byte,
    r.toNat = 4 * s.clkEn.toNat +
      (match s.st with | .idle => 0 | .armed _ => 2 | .frozen => 1) ∧
    exec .rdStatus s = .next { s with
      obsFrozen := decide (s.st = .frozen), rlog := s.rlog ++ [r.zeroExtend 16] }

/-- RD_PHYS and RD_CHRON (R153, R154, R159): a written cell's byte, or some byte for an `Unwritten`
one; the mark of an unsynchronised read; and the frame. The byte of an `Unwritten` cell is a free
value, so the statement holds for every one; `draws` only counts the free values used. -/
def Obligations.BufferReads : Prop :=
  (∀ a : Index, decodeOp16 (0x4000#16 ||| a.zeroExtend 16) = .ok (.rdPhys a)) ∧
  (∀ j : Index, decodeOp16 (0x5000#16 ||| j.zeroExtend 16) = .ok (.rdChron j)) ∧
  ∀ s : State,
    (∀ (a : Index) (v : Byte), Memory.read s.buf a.toNat = some v →
      exec (.rdPhys a) s = .next { s with
        unsyncRead := s.unsyncRead || s.clkEn, rlog := s.rlog ++ [v.zeroExtend 16] }) ∧
    (∀ a : Index, Memory.read s.buf a.toNat = none → ∃ (v : Byte) (n : Nat),
      exec (.rdPhys a) s = .next { s with
        unsyncRead := s.unsyncRead || s.clkEn, rlog := s.rlog ++ [v.zeroExtend 16], draws := n }) ∧
    (∀ (j : Index) (v : Byte), Memory.read s.buf ((s.head.toNat + j.toNat) % 1024) = some v →
      exec (.rdChron j) s = .next { s with
        unsyncRead := s.unsyncRead || s.clkEn, rlog := s.rlog ++ [v.zeroExtend 16] }) ∧
    (∀ j : Index, Memory.read s.buf ((s.head.toNat + j.toNat) % 1024) = none →
      ∃ (v : Byte) (n : Nat), exec (.rdChron j) s = .next { s with
        unsyncRead := s.unsyncRead || s.clkEn, rlog := s.rlog ++ [v.zeroExtend 16], draws := n })

/-- RD_HEAD (R155). -/
def Obligations.RdHeadReads : Prop :=
  decodeOp16 0x6000#16 = .ok .rdHead ∧
  ∀ s : State, exec .rdHead s = .next { s with rlog := s.rlog ++ [s.head.zeroExtend 16] }

/-- RD_STOP (R156): the stop index while armed, some index otherwise (a free value: the statement holds
for every one). -/
def Obligations.RdStopReads : Prop :=
  decodeOp16 0x7000#16 = .ok .rdStop ∧
  ∀ s : State,
    (∀ p : Index, s.st = .armed p →
      exec .rdStop s = .next { s with rlog := s.rlog ++ [p.zeroExtend 16] }) ∧
    ((∀ p, s.st ≠ .armed p) → ∃ (p : Index) (n : Nat),
      exec .rdStop s = .next { s with rlog := s.rlog ++ [p.zeroExtend 16], draws := n })

/-- RD_HIST (R157): reading does not shift. -/
def Obligations.RdHistReads : Prop :=
  decodeOp16 0x8000#16 = .ok .rdHist ∧
  ∀ s : State, exec .rdHist s = .next { s with rlog := s.rlog ++ [s.hist.zeroExtend 16] }

/-- The producer-pause fence: from a running clock CLK_STOP leaves no tick enabled, and while the clock
is stopped with no late tick left, no step of any agent in either form changes `buf`, `head`, `hist` or
`st` (20_memory.md section 3). It rests on the spec's own choice `STOP_LATE_TICKS` = 0 (log entry 3). -/
def Obligations.StoppedClockFencesTheCore : Prop :=
  (∀ s t : State, s.clkEn = true → exec .clkStop s = .next t → t.clkEn = false ∧ t.late = 0) ∧
  ∀ s t : State, s.clkEn = false → s.late = 0 → step s = .next t → SameCore s t

/-- Ownership: the tick alone writes `buf`, `head`, `hist` and `st`; the consumer alone writes `clk_en`
and `duty`, the latter by `'t'` only (20_memory.md section 3, 10_state.md section 5). -/
def Obligations.EachAgentWritesItsOwn : Prop :=
  ∀ (i : Instr) (s t : State), exec i s = .next t →
    (i.agent ≠ .tick → SameCore s t) ∧
    (i.agent = .tick → t.clkEn = s.clkEn ∧ t.duty = s.duty) ∧
    ((∀ d0 d1 d2, i ≠ .cmdT d0 d1 d2) → t.duty = s.duty) ∧
    (i ≠ .clkStop → i ≠ .clkStart → i ≠ .cmdR → t.clkEn = s.clkEn)

/-- A sticky mark once set stays set in every step (10_state.md section 4). -/
def Obligations.MarksAreSticky : Prop :=
  ∀ s t : State, step s = .next t →
    (s.refused = true → t.refused = true) ∧ (s.unsyncRead = true → t.unsyncRead = true) ∧
    (s.freezeLost = true → t.freezeLost = true)

/-! ## The reference consumer (43_command_processor.md) -/

/-- The `WaitCmd` step: the first byte leaves the stream and selects the command (R173). -/
def Obligations.WaitCmdDecodes : Prop :=
  ∀ (s : State) (ts : List Turn) (b : Byte) (bs : List Byte),
    s.form = .reference → s.sched = .consumer :: ts → s.cons = .waitCmd → s.rx = b :: bs →
    step s = .next { s with
      sched := ts, rx := bs,
      cons := if b = 0x72#8 then .rPoll else if b = 0x74#8 then .tDig0 else .waitCmd }

/-- The meanings' own first step: `'r'` moves to `RPoll`, `'t'` to its first operand byte, and any other
byte has no effect and no response (43_command_processor.md section 2). -/
def Obligations.CommandsStartAtWaitCmd : Prop :=
  ∀ s : State, s.cons = .waitCmd →
    exec .cmdR s = .next { s with cons := .rPoll } ∧
    (∀ d0 d1 d2, exec (.cmdT d0 d1 d2) s = .next { s with cons := .tDig0 }) ∧
    (∀ b, exec (.cmdIgn b) s = .next s)

/-- The `RPoll` step of CMD_R (R174). -/
def Obligations.PollWaitsForFrozen : Prop :=
  ∀ s : State, s.cons = .rPoll →
    exec .cmdR s = .next { s with
      obsFrozen := decide (s.st = .frozen),
      cons := if s.st = .frozen then .rStop else .rPoll }

/-- The `RStop` step of CMD_R: CLK_STOP and on to window byte 0 (R175). -/
def Obligations.StopStepStopsTheClock : Prop :=
  ∀ s : State, s.cons = .rStop →
    exec .cmdR s = .next { s with
      late := if s.clkEn then Config.stopLateTicks else s.late, clkEn := false, obsFrozen := false,
      cons := .rSend 0#10 }

/-- The `RSend(j)` step of CMD_R (43_command_processor.md sections 1 and 3): held until the transport
accepts a byte; then window byte `j` is sent, a free value for an `Unwritten` cell, and the next byte or
the restart follows. That the transport's readiness is one bit, spent by each byte, is the model's choice
(log entry 8); that a held turn passes and changes nothing is its reading of R13 (log entry 9). -/
def Obligations.SendStepSendsWindowByte : Prop :=
  ∀ (s : State) (j : Index), s.cons = .rSend j →
    (s.txReady = false → exec .cmdR s = .next s) ∧
    (s.txReady = true →
      (∀ v, Memory.read s.buf ((s.head.toNat + j.toNat) % 1024) = some v →
        exec .cmdR s = .next { s with
          unsyncRead := s.unsyncRead || s.clkEn, tx := s.tx ++ [v], txReady := false,
          cons := if j.toNat < 1023 then .rSend (BitVec.ofNat 10 (j.toNat + 1)) else .rStart }) ∧
      (Memory.read s.buf ((s.head.toNat + j.toNat) % 1024) = none →
        ∃ (v : Byte) (n : Nat), exec .cmdR s = .next { s with
          unsyncRead := s.unsyncRead || s.clkEn, tx := s.tx ++ [v], txReady := false,
          draws := n,
          cons := if j.toNat < 1023 then .rSend (BitVec.ofNat 10 (j.toNat + 1)) else .rStart }))

/-- The `RStart` step of CMD_R: CLK_START and back to `WaitCmd`; `st` is not written (R177). -/
def Obligations.RestartStepRestartsTheClock : Prop :=
  ∀ s : State, s.cons = .rStart →
    exec .cmdR s = .next { s with clkEn := true, late := 0, cons := .waitCmd }

/-- The first two `TDig` steps of CMD_T take their byte and touch nothing else (43_command_processor.md
section 4). -/
def Obligations.DigitStepsCollect : Prop :=
  ∀ (s : State) (d0 d1 d2 : Byte),
    (s.cons = .tDig0 → exec (.cmdT d0 d1 d2) s = .next { s with cons := .tDig1 d0 }) ∧
    (∀ a0, s.cons = .tDig1 a0 → exec (.cmdT d0 d1 d2) s = .next { s with cons := .tDig2 a0 d1 })

/-- The last `TDig` step of CMD_T writes `duty` with TVAL (43_command_processor.md section 4): three digits
of value at most 255 give that value; otherwise some byte, never a fault (a free value: the statement
holds for every one). The digit codes are PRESUMED (log entry 14): the spec gives them from general
knowledge. -/
def Obligations.LevelStepWritesDuty : Prop :=
  ∀ (s : State) (a0 a1 d0 d1 b : Byte), s.cons = .tDig2 a0 a1 →
    ((∀ x ∈ [a0, a1, b], 0x30 ≤ x.toNat ∧ x.toNat ≤ 0x39) →
      100 * (a0.toNat - 0x30) + 10 * (a1.toNat - 0x30) + (b.toNat - 0x30) ≤ 255 →
      exec (.cmdT d0 d1 b) s = .next { s with
        duty := BitVec.ofNat 8
          (100 * (a0.toNat - 0x30) + 10 * (a1.toNat - 0x30) + (b.toNat - 0x30)),
        cons := .waitCmd }) ∧
    (((∃ x ∈ [a0, a1, b], x.toNat < 0x30 ∨ 0x39 < x.toNat) ∨
      255 < 100 * (a0.toNat - 0x30) + 10 * (a1.toNat - 0x30) + (b.toNat - 0x30)) →
      ∃ (v : Byte) (n : Nat), exec (.cmdT d0 d1 b) s = .next { s with
        duty := v, cons := .waitCmd, draws := n })

/-- While a `'t'` or a `'r'` is in progress no step of any agent selects another command: each position is
left only for the next one of the same command, the last one only for `WaitCmd`, and no byte leaves the
host's stream during a `'r'`. A meaning asked for inside another command answers commandInProgress (the
model's choice, log entry 10), and no step answers that (43_command_processor.md section 5). -/
def Obligations.NoCommandInsideAnother : Prop :=
  (∀ s t : State, step s = .next t →
    (s.cons = .tDig0 → t.cons = s.cons ∨ ∃ a, t.cons = .tDig1 a) ∧
    (∀ a, s.cons = .tDig1 a → t.cons = s.cons ∨ ∃ b, t.cons = .tDig2 a b) ∧
    (∀ a b, s.cons = .tDig2 a b → t.cons = s.cons ∨ t.cons = .waitCmd) ∧
    (s.cons = .rPoll → t.cons = s.cons ∨ t.cons = .rStop) ∧
    (s.cons = .rStop → t.cons = s.cons ∨ t.cons = .rSend 0#10) ∧
    (∀ j, s.cons = .rSend j → t.cons = s.cons ∨
      t.cons = if j.toNat < 1023 then .rSend (BitVec.ofNat 10 (j.toNat + 1)) else .rStart) ∧
    (s.cons = .rStart → t.cons = s.cons ∨ t.cons = .waitCmd) ∧
    ((s.cons = .rPoll ∨ s.cons = .rStop ∨ (∃ j, s.cons = .rSend j) ∨ s.cons = .rStart) →
      t.rx = s.rx ∨ ∃ b, t.rx = s.rx ++ [b])) ∧
  (∀ s : State, step s ≠ .fault .commandInProgress) ∧
  ∀ s : State,
    ((s.cons = .tDig0 ∨ (∃ a, s.cons = .tDig1 a) ∨ ∃ a b, s.cons = .tDig2 a b) →
      exec .cmdR s = .fault .commandInProgress) ∧
    ((s.cons = .rPoll ∨ s.cons = .rStop ∨ (∃ j, s.cons = .rSend j) ∨ s.cons = .rStart) →
      ∀ d0 d1 d2, exec (.cmdT d0 d1 d2) s = .fault .commandInProgress) ∧
    (s.cons ≠ .waitCmd → ∀ b, exec (.cmdIgn b) s = .fault .commandInProgress)

/-- A whole `'t'` with digits: four turns of the consumer, one after another, take four bytes and set
`duty` to their value (43_command_processor.md section 4). The digit codes are PRESUMED (log entry 14):
the spec gives them from general knowledge. The turns come from `sched` (log entry 6). -/
def Obligations.LevelCommandSetsDuty : Prop :=
  ∀ (s : State) (d0 d1 d2 : Byte) (bs : List Byte) (ts : List Turn),
    s.form = .reference → s.cons = .waitCmd → s.rx = 0x74#8 :: d0 :: d1 :: d2 :: bs →
    s.sched = .consumer :: .consumer :: .consumer :: .consumer :: ts →
    (∀ x ∈ [d0, d1, d2], 0x30 ≤ x.toNat ∧ x.toNat ≤ 0x39) →
    100 * (d0.toNat - 0x30) + 10 * (d1.toNat - 0x30) + (d2.toNat - 0x30) ≤ 255 →
    Sys2Proof.core.run 4 s = .next { s with
      rx := bs, sched := ts,
      duty := BitVec.ofNat 8
        (100 * (d0.toNat - 0x30) + 10 * (d1.toNat - 0x30) + (d2.toNat - 0x30)) }

/-- A dump in progress stays one until it ends with all 1024 bytes of the window sent in chronological
order and the clock running again, whichever agents move in between; and `RStop` begins one
(43_command_processor.md sections 3 and 5). That no late tick is left after the stop rests on
`STOP_LATE_TICKS` = 0 (log entry 3). `tx` and the schedule are the model's forms (log entries 6 and 8). -/
def Obligations.DumpSendsWindowInOrder : Prop :=
  (∀ (sent : List Byte) (s t : State), DumpInProgress sent s → step s = .next t →
    DumpInProgress sent t ∨
    (t.cons = .waitCmd ∧ t.clkEn = true ∧ (t.windowBytes 1024).length = 1024 ∧
      t.tx = sent ++ t.windowBytes 1024)) ∧
  (∀ s : State, s.form = .reference → s.clkEn = true → s.cons = .rStop → s.allWritten →
    ∃ t, exec .cmdR s = .next t ∧ DumpInProgress s.tx t ∧ SameCore s t)

/-- Under weak fairness a dump that has begun ends, in every schedule (60_exceptions.md section 5,
43_command_processor.md section 5). Fairness is a premise (log entry 15). -/
def Obligations.FairDumpEnds : Prop :=
  ∀ (e : Nat → Turn) (r : Nat → State) (n : Nat), IsRun e r → WeaklyFair e r →
    ((r n).cons = .rStop ∨ (∃ j, (r n).cons = .rSend j) ∨ (r n).cons = .rStart) →
    ∃ m, n ≤ m ∧ (r m).cons = .waitCmd

/-- After a dump without a lost race the trigger is still `Frozen`, and the first tick makes it Idle
(43_command_processor.md section 3, 90_conflicts.md C4). -/
def Obligations.FirstTickAfterDumpRearms : Prop :=
  ∀ s : State, s.cons = .rStart → s.st = .frozen →
    ∃ t, exec .cmdR s = .next t ∧ t.st = .frozen ∧
      ∀ (c : Bool) (v : Byte), ∃ u, exec (.tick c v) t = .next u ∧ u.st = .idle

/-- The lost race: a tick between the poll that saw `Frozen` and the stop clears the freeze, sets
`freeze_lost`, and moves the window on by one, its oldest cell overwritten (70_reset_and_hazards.md
section 2). -/
def Obligations.FreezeRaceShiftsWindow : Prop :=
  ∀ (s : State) (c : Bool) (v : Byte), (s.clkEn = true ∨ 0 < s.late) → s.st = .frozen →
    s.obsFrozen = true →
    ∃ t, exec (.tick c v) s = .next t ∧ t.st = .idle ∧ t.freezeLost = true ∧
      t.windowCell 1023 = some v ∧ ∀ j, j < 1023 → t.windowCell j = s.windowCell (j + 1)

/-! ## The step (00_scope.md, 42_consumer_ops.md, 60_exceptions.md) -/

/-- The direct consumer: the word at `dpc` decodes to `i`; the step is `i`'s meaning with `dpc` moved on
by one (42_consumer_ops.md section 5). At the list's end the run ends, by a fault of the model (log entry
12). -/
def Obligations.StepRunsInterfaceWord : Prop :=
  ∀ s : State, s.form = .direct → s.refused = false →
    (∀ w i, s.prog[s.dpc]? = some w → decodeOp16 w = .ok i →
      step s = exec i { s with dpc := s.dpc + 1 }) ∧
    (s.dpc = s.prog.length → step s = .fault .runEnded)

/-- The reference consumer's turn: the bytes at the front of the stream decode to `i`, and the step is
`i`'s meaning with the command byte taken; inside a command the step is that command's meaning, an
operand byte taken first (43_command_processor.md sections 1 to 4). With no byte the turn passes: the
model's reading of a held agent (log entry 9). The turn comes from `sched` (log entry 6). -/
def Obligations.StepRunsCommand : Prop :=
  ∀ (s : State) (ts : List Turn), s.form = .reference → s.sched = .consumer :: ts →
    (s.cons = .waitCmd → ∀ i rest, decodeCmd8 s.rx = .ok (i, rest) →
      step s = exec i { s with sched := ts, rx := s.rx.tail }) ∧
    (∀ b bs, s.rx = b :: bs →
      (s.cons = .tDig0 →
        ∀ d1 d2, step s = exec (.cmdT b d1 d2) { s with sched := ts, rx := bs }) ∧
      (∀ a0, s.cons = .tDig1 a0 →
        ∀ d2, step s = exec (.cmdT a0 b d2) { s with sched := ts, rx := bs }) ∧
      (∀ a0 a1, s.cons = .tDig2 a0 a1 →
        step s = exec (.cmdT a0 a1 b) { s with sched := ts, rx := bs })) ∧
    (s.rx = [] → (s.cons = .waitCmd ∨ s.cons = .tDig0 ∨ (∃ a, s.cons = .tDig1 a) ∨
      ∃ a b, s.cons = .tDig2 a b) → step s = .next { s with sched := ts }) ∧
    ((s.cons = .rPoll ∨ s.cons = .rStop ∨ (∃ j, s.cons = .rSend j) ∨ s.cons = .rStart) →
      step s = exec .cmdR { s with sched := ts })

/-- The other agents' turns: an enabled tick is TICK's meaning, one that is not enabled does not happen;
the host's byte joins the end of the stream; the transport becomes ready. With no turn chosen, the step
is that of some turn: every order is open (60_exceptions.md section 2, 43_command_processor.md section
1). The schedule, the streams and the passing turn are the model's forms (log entries 6, 8, 9). -/
def Obligations.StepTakesTurns : Prop :=
  ∀ s : State, s.form = .reference →
    (∀ ts c v, s.sched = .tick c v :: ts →
      ((s.clkEn = true ∨ 0 < s.late) → step s = exec (.tick c v) { s with sched := ts }) ∧
      (s.clkEn = false → s.late = 0 → step s = .next { s with sched := ts })) ∧
    (∀ ts b, s.sched = .hostSend b :: ts →
      step s = .next { s with sched := ts, rx := s.rx ++ [b] }) ∧
    (∀ ts, s.sched = .hostAccept :: ts → step s = .next { s with sched := ts, txReady := true }) ∧
    (s.sched = [] → ∃ t : Turn,
      step s = step { s with sched := [t], draws := s.draws + 1 })

/-- Nothing traps, faults or halts under the reference consumer: from every state, reachable or not,
there is a next state (60_exceptions.md section 1). That a held turn passes is the model's reading (log
entry 9). -/
def Obligations.ReferenceConsumerNeverStops : Prop :=
  ∀ s : State, s.form = .reference → ∃ t, step s = .next t

/-- A step stops only where the spec says a run stops: at a `tick` word that is not enabled, at the
list's end, or after a reserved word, each in the direct consumer's form (60_exceptions.md section 1,
42_consumer_ops.md section 5). The two names at the end of a run are the model's (log entries 11, 12). -/
def Obligations.StopsAreTheNamedOnes : Prop :=
  ∀ s : State,
    (∀ f, step s = .fault f → s.form = .direct ∧ s.refused = false ∧
      ((f = .runEnded ∧ s.prog.length ≤ s.dpc) ∨
       (f = .tickNotEnabled ∧ s.clkEn = false ∧ s.late = 0 ∧
        ∃ w c v, s.prog[s.dpc]? = some w ∧ decodeOp16 w = .ok (.tick c v)))) ∧
    (∀ r, step s = .refused r → s.form = .direct ∧ s.refused = true ∧ r = .reservedWord)

/-- The invariant holds at reset, for every value of the OPEN parameters (10_state.md section 5). -/
def Obligations.InvariantHoldsAtReset : Prop :=
  State.reset.Inv ∧ ∀ h d : Byte, (State.resetWith h d).Inv

/-- Every step keeps the invariant, from every state that meets it (10_state.md section 5). The bound on
late ticks is `STOP_LATE_TICKS` = 0 (log entry 3). -/
def Obligations.StepKeepsInvariant : Prop :=
  ∀ s t : State, s.Inv → step s = .next t → t.Inv
end

