-- ==== Sys2Proof/Laws/Decode.lean ====
section
/-! SUPPORT. What the decoders can answer, said once (R74, R78, R71). -/
namespace Sys2Proof

theorem Op16Row.covers_iff (r : Op16Row) (w : Word) : r.covers w = true ↔ w &&& r.mask = r.pat := by
  simp [Op16Row.covers]

/-- Everything the decoder of interface words can answer (R74, R78). -/
theorem decodeOp16_cases (w : Word) :
    (rowTick.covers w = true ∧ decodeOp16 w = .ok (.tick (tickBit w) (tickSample w))) ∨
    (rowClkStop.covers w = true ∧ decodeOp16 w = .ok .clkStop) ∨
    (rowClkStart.covers w = true ∧ decodeOp16 w = .ok .clkStart) ∨
    (rowRdStatus.covers w = true ∧ decodeOp16 w = .ok .rdStatus) ∨
    (rowRdPhys.covers w = true ∧ decodeOp16 w = .ok (.rdPhys (indexField w))) ∨
    (rowRdChron.covers w = true ∧ decodeOp16 w = .ok (.rdChron (indexField w))) ∨
    (rowRdHead.covers w = true ∧ decodeOp16 w = .ok .rdHead) ∨
    (rowRdStop.covers w = true ∧ decodeOp16 w = .ok .rdStop) ∨
    (rowRdHist.covers w = true ∧ decodeOp16 w = .ok .rdHist) ∨
    ((∀ r ∈ op16Rows, r.covers w = false) ∧ decodeOp16 w = .error (reservedReason w)) := by
  unfold decodeOp16
  split
  · next h => exact .inl ⟨h, rfl⟩
  split
  · next h => exact .inr (.inl ⟨h, rfl⟩)
  split
  · next h => exact .inr (.inr (.inl ⟨h, rfl⟩))
  split
  · next h => exact .inr (.inr (.inr (.inl ⟨h, rfl⟩)))
  split
  · next h => exact .inr (.inr (.inr (.inr (.inl ⟨h, rfl⟩))))
  split
  · next h => exact .inr (.inr (.inr (.inr (.inr (.inl ⟨h, rfl⟩)))))
  split
  · next h => exact .inr (.inr (.inr (.inr (.inr (.inr (.inl ⟨h, rfl⟩))))))
  split
  · next h => exact .inr (.inr (.inr (.inr (.inr (.inr (.inr (.inl ⟨h, rfl⟩)))))))
  split
  · next h => exact .inr (.inr (.inr (.inr (.inr (.inr (.inr (.inr (.inl ⟨h, rfl⟩))))))))
  · refine .inr (.inr (.inr (.inr (.inr (.inr (.inr (.inr (.inr ⟨?_, rfl⟩))))))))
    simp_all [op16Rows]

/-- An interface word never decodes to a serial command (R70). -/
theorem decodeOp16_format {w : Word} {i : Instr} (h : decodeOp16 w = .ok i) : i.format = .op16 := by
  obtain ⟨_, h'⟩ | ⟨_, h'⟩ | ⟨_, h'⟩ | ⟨_, h'⟩ | ⟨_, h'⟩ | ⟨_, h'⟩ | ⟨_, h'⟩ | ⟨_, h'⟩ | ⟨_, h'⟩ |
    ⟨_, h'⟩ := decodeOp16_cases w <;> rw [h'] at h <;> cases h <;> rfl

end Sys2Proof
end

