-- ==== Sys2Proof/Laws/Memory.lean ====
section
/-! SUPPORT. The laws of the buffer: read after write, and the canonical form kept (R51). -/
namespace Sys2Proof.Machine

/-- A cell holds what was last written to it. -/
theorem Memory.read_write_same (m : Memory) (a : Nat) (v : Byte) :
    Memory.read (Memory.write m a v) a = some v := by
  induction m with
  | nil => simp [Memory.write, Memory.read]
  | cons x m ih =>
    obtain ⟨b, w⟩ := x
    by_cases h : a < b
    · simp [Memory.write, Memory.read, h]
    · by_cases h' : a = b
      · simp [Memory.write, Memory.read, h']
      · simp [Memory.write, Memory.read, h, h', ih]

/-- A write leaves every other cell alone. -/
theorem Memory.read_write_other (m : Memory) {a b : Nat} (v : Byte) (hab : b ≠ a) :
    Memory.read (Memory.write m a v) b = Memory.read m b := by
  induction m with
  | nil => simp [Memory.write, Memory.read, hab]
  | cons x m ih =>
    obtain ⟨d, w⟩ := x
    by_cases h : a < d
    · simp [Memory.write, Memory.read, h, hab]
    · by_cases h' : a = d
      · subst h'
        simp [Memory.write, Memory.read, hab]
      · simp [Memory.write, Memory.read, h, h', ih]

/-- Reading any cell after a write. -/
theorem Memory.read_write (m : Memory) (a b : Nat) (v : Byte) :
    Memory.read (Memory.write m a v) b = if b = a then some v else Memory.read m b := by
  split
  · next h => rw [h, Memory.read_write_same]
  · next h => rw [Memory.read_write_other m v h]

/-- Writing at or above `lo` keeps the addresses rising from `lo`. -/
theorem Memory.wfFrom_write (m : Memory) {lo a : Nat} (v : Byte) (hlo : lo ≤ a)
    (ha : a < Config.capacity) (h : Memory.wfFrom lo m = true) :
    Memory.wfFrom lo (Memory.write m a v) = true := by
  induction m generalizing lo with
  | nil => simp [Memory.write, Memory.wfFrom, hlo, ha]
  | cons x m ih =>
    obtain ⟨b, w⟩ := x
    simp only [Memory.wfFrom, Bool.and_eq_true, decide_eq_true_eq] at h
    obtain ⟨⟨h1, h2⟩, h3⟩ := h
    by_cases hlt : a < b
    · simp [Memory.write, Memory.wfFrom, hlt, hlo, ha, h2, h3, Nat.succ_le_of_lt hlt]
    · by_cases heq : a = b
      · subst heq
        simp [Memory.write, Memory.wfFrom, hlo, ha, h3]
      · have := ih (lo := b + 1) (by omega) h3
        simp [Memory.write, Memory.wfFrom, hlt, heq, h1, h2, this]

/-- A write keeps the canonical form. -/
theorem Memory.wf_write (m : Memory) {a : Nat} (v : Byte) (ha : a < Config.capacity)
    (h : Memory.wf m = true) : Memory.wf (Memory.write m a v) = true :=
  Memory.wfFrom_write m v (Nat.zero_le a) ha h

/-- A tick's store keeps the canonical form (R122). -/
theorem State.storeSample_wf (s : State) (v : Byte) (h : Memory.wf s.buf = true) :
    Memory.wf (s.storeSample v).buf = true :=
  Memory.wf_write s.buf v s.head.isLt h

/-- The buffer at reset is in the canonical form (R230). -/
theorem State.resetWith_wf (h d : Byte) : Memory.wf (State.resetWith h d).buf = true := rfl

/-- Below its first address a canonical memory lists nothing. -/
theorem Memory.read_below (m : Memory) {lo a : Nat} (ha : a < lo)
    (h : Memory.wfFrom lo m = true) : Memory.read m a = none := by
  induction m generalizing lo with
  | nil => rfl
  | cons x m ih =>
    obtain ⟨b, w⟩ := x
    simp only [Memory.wfFrom, Bool.and_eq_true, decide_eq_true_eq] at h
    have hne : a ≠ b := by omega
    simp [Memory.read, hne, ih (lo := b + 1) (by omega) h.2]

end Sys2Proof.Machine
end

