-- ==== Sys2Proof/Laws/State.lean ====
section
/-! SUPPORT. What each named update of State does to each field, one lemma each, so that no proof unfolds
a record update. -/
namespace Sys2Proof.Machine

variable (s : State)

/-! `State.nextDraw`. -/

@[simp] theorem State.nextDraw_buf : s.nextDraw.buf = s.buf := rfl
@[simp] theorem State.nextDraw_head : s.nextDraw.head = s.head := rfl
@[simp] theorem State.nextDraw_hist : s.nextDraw.hist = s.hist := rfl
@[simp] theorem State.nextDraw_st : s.nextDraw.st = s.st := rfl
@[simp] theorem State.nextDraw_clkEn : s.nextDraw.clkEn = s.clkEn := rfl
@[simp] theorem State.nextDraw_duty : s.nextDraw.duty = s.duty := rfl
@[simp] theorem State.nextDraw_late : s.nextDraw.late = s.late := rfl
@[simp] theorem State.nextDraw_form : s.nextDraw.form = s.form := rfl
@[simp] theorem State.nextDraw_cons : s.nextDraw.cons = s.cons := rfl
@[simp] theorem State.nextDraw_prog : s.nextDraw.prog = s.prog := rfl
@[simp] theorem State.nextDraw_dpc : s.nextDraw.dpc = s.dpc := rfl
@[simp] theorem State.nextDraw_rlog : s.nextDraw.rlog = s.rlog := rfl
@[simp] theorem State.nextDraw_refused : s.nextDraw.refused = s.refused := rfl
@[simp] theorem State.nextDraw_unsyncRead : s.nextDraw.unsyncRead = s.unsyncRead := rfl
@[simp] theorem State.nextDraw_freezeLost : s.nextDraw.freezeLost = s.freezeLost := rfl
@[simp] theorem State.nextDraw_obsFrozen : s.nextDraw.obsFrozen = s.obsFrozen := rfl
@[simp] theorem State.nextDraw_rx : s.nextDraw.rx = s.rx := rfl
@[simp] theorem State.nextDraw_tx : s.nextDraw.tx = s.tx := rfl
@[simp] theorem State.nextDraw_txReady : s.nextDraw.txReady = s.txReady := rfl
@[simp] theorem State.nextDraw_sched : s.nextDraw.sched = s.sched := rfl
@[simp] theorem State.nextDraw_draws : s.nextDraw.draws = s.draws + 1 := rfl

/-! `State.spendLate`. -/

@[simp] theorem State.spendLate_buf : s.spendLate.buf = s.buf := rfl
@[simp] theorem State.spendLate_head : s.spendLate.head = s.head := rfl
@[simp] theorem State.spendLate_hist : s.spendLate.hist = s.hist := rfl
@[simp] theorem State.spendLate_st : s.spendLate.st = s.st := rfl
@[simp] theorem State.spendLate_clkEn : s.spendLate.clkEn = s.clkEn := rfl
@[simp] theorem State.spendLate_duty : s.spendLate.duty = s.duty := rfl
@[simp] theorem State.spendLate_late : s.spendLate.late = if s.clkEn then s.late else s.late - 1 := rfl
@[simp] theorem State.spendLate_form : s.spendLate.form = s.form := rfl
@[simp] theorem State.spendLate_cons : s.spendLate.cons = s.cons := rfl
@[simp] theorem State.spendLate_prog : s.spendLate.prog = s.prog := rfl
@[simp] theorem State.spendLate_dpc : s.spendLate.dpc = s.dpc := rfl
@[simp] theorem State.spendLate_rlog : s.spendLate.rlog = s.rlog := rfl
@[simp] theorem State.spendLate_refused : s.spendLate.refused = s.refused := rfl
@[simp] theorem State.spendLate_unsyncRead : s.spendLate.unsyncRead = s.unsyncRead := rfl
@[simp] theorem State.spendLate_freezeLost : s.spendLate.freezeLost = s.freezeLost := rfl
@[simp] theorem State.spendLate_obsFrozen : s.spendLate.obsFrozen = s.obsFrozen := rfl
@[simp] theorem State.spendLate_rx : s.spendLate.rx = s.rx := rfl
@[simp] theorem State.spendLate_tx : s.spendLate.tx = s.tx := rfl
@[simp] theorem State.spendLate_txReady : s.spendLate.txReady = s.txReady := rfl
@[simp] theorem State.spendLate_sched : s.spendLate.sched = s.sched := rfl
@[simp] theorem State.spendLate_draws : s.spendLate.draws = s.draws := rfl

/-! `State.storeSample`. -/

@[simp] theorem State.storeSample_buf (v : Byte) : (s.storeSample v).buf = Memory.write s.buf s.head.toNat v := rfl
@[simp] theorem State.storeSample_head (v : Byte) : (s.storeSample v).head = s.head := rfl
@[simp] theorem State.storeSample_hist (v : Byte) : (s.storeSample v).hist = s.hist := rfl
@[simp] theorem State.storeSample_st (v : Byte) : (s.storeSample v).st = s.st := rfl
@[simp] theorem State.storeSample_clkEn (v : Byte) : (s.storeSample v).clkEn = s.clkEn := rfl
@[simp] theorem State.storeSample_duty (v : Byte) : (s.storeSample v).duty = s.duty := rfl
@[simp] theorem State.storeSample_late (v : Byte) : (s.storeSample v).late = s.late := rfl
@[simp] theorem State.storeSample_form (v : Byte) : (s.storeSample v).form = s.form := rfl
@[simp] theorem State.storeSample_cons (v : Byte) : (s.storeSample v).cons = s.cons := rfl
@[simp] theorem State.storeSample_prog (v : Byte) : (s.storeSample v).prog = s.prog := rfl
@[simp] theorem State.storeSample_dpc (v : Byte) : (s.storeSample v).dpc = s.dpc := rfl
@[simp] theorem State.storeSample_rlog (v : Byte) : (s.storeSample v).rlog = s.rlog := rfl
@[simp] theorem State.storeSample_refused (v : Byte) : (s.storeSample v).refused = s.refused := rfl
@[simp] theorem State.storeSample_unsyncRead (v : Byte) : (s.storeSample v).unsyncRead = s.unsyncRead := rfl
@[simp] theorem State.storeSample_freezeLost (v : Byte) : (s.storeSample v).freezeLost = s.freezeLost := rfl
@[simp] theorem State.storeSample_obsFrozen (v : Byte) : (s.storeSample v).obsFrozen = s.obsFrozen := rfl
@[simp] theorem State.storeSample_rx (v : Byte) : (s.storeSample v).rx = s.rx := rfl
@[simp] theorem State.storeSample_tx (v : Byte) : (s.storeSample v).tx = s.tx := rfl
@[simp] theorem State.storeSample_txReady (v : Byte) : (s.storeSample v).txReady = s.txReady := rfl
@[simp] theorem State.storeSample_sched (v : Byte) : (s.storeSample v).sched = s.sched := rfl
@[simp] theorem State.storeSample_draws (v : Byte) : (s.storeSample v).draws = s.draws := rfl

/-! `State.setTrigger`. -/

@[simp] theorem State.setTrigger_buf (t : Trigger) : (s.setTrigger t).buf = s.buf := rfl
@[simp] theorem State.setTrigger_head (t : Trigger) : (s.setTrigger t).head = s.head := rfl
@[simp] theorem State.setTrigger_hist (t : Trigger) : (s.setTrigger t).hist = s.hist := rfl
@[simp] theorem State.setTrigger_st (t : Trigger) : (s.setTrigger t).st = t := rfl
@[simp] theorem State.setTrigger_clkEn (t : Trigger) : (s.setTrigger t).clkEn = s.clkEn := rfl
@[simp] theorem State.setTrigger_duty (t : Trigger) : (s.setTrigger t).duty = s.duty := rfl
@[simp] theorem State.setTrigger_late (t : Trigger) : (s.setTrigger t).late = s.late := rfl
@[simp] theorem State.setTrigger_form (t : Trigger) : (s.setTrigger t).form = s.form := rfl
@[simp] theorem State.setTrigger_cons (t : Trigger) : (s.setTrigger t).cons = s.cons := rfl
@[simp] theorem State.setTrigger_prog (t : Trigger) : (s.setTrigger t).prog = s.prog := rfl
@[simp] theorem State.setTrigger_dpc (t : Trigger) : (s.setTrigger t).dpc = s.dpc := rfl
@[simp] theorem State.setTrigger_rlog (t : Trigger) : (s.setTrigger t).rlog = s.rlog := rfl
@[simp] theorem State.setTrigger_refused (t : Trigger) : (s.setTrigger t).refused = s.refused := rfl
@[simp] theorem State.setTrigger_unsyncRead (t : Trigger) : (s.setTrigger t).unsyncRead = s.unsyncRead := rfl
@[simp] theorem State.setTrigger_freezeLost (t : Trigger) : (s.setTrigger t).freezeLost = s.freezeLost := rfl
@[simp] theorem State.setTrigger_obsFrozen (t : Trigger) : (s.setTrigger t).obsFrozen = s.obsFrozen := rfl
@[simp] theorem State.setTrigger_rx (t : Trigger) : (s.setTrigger t).rx = s.rx := rfl
@[simp] theorem State.setTrigger_tx (t : Trigger) : (s.setTrigger t).tx = s.tx := rfl
@[simp] theorem State.setTrigger_txReady (t : Trigger) : (s.setTrigger t).txReady = s.txReady := rfl
@[simp] theorem State.setTrigger_sched (t : Trigger) : (s.setTrigger t).sched = s.sched := rfl
@[simp] theorem State.setTrigger_draws (t : Trigger) : (s.setTrigger t).draws = s.draws := rfl

/-! `State.markFreezeLost`. -/

@[simp] theorem State.markFreezeLost_buf : s.markFreezeLost.buf = s.buf := rfl
@[simp] theorem State.markFreezeLost_head : s.markFreezeLost.head = s.head := rfl
@[simp] theorem State.markFreezeLost_hist : s.markFreezeLost.hist = s.hist := rfl
@[simp] theorem State.markFreezeLost_st : s.markFreezeLost.st = s.st := rfl
@[simp] theorem State.markFreezeLost_clkEn : s.markFreezeLost.clkEn = s.clkEn := rfl
@[simp] theorem State.markFreezeLost_duty : s.markFreezeLost.duty = s.duty := rfl
@[simp] theorem State.markFreezeLost_late : s.markFreezeLost.late = s.late := rfl
@[simp] theorem State.markFreezeLost_form : s.markFreezeLost.form = s.form := rfl
@[simp] theorem State.markFreezeLost_cons : s.markFreezeLost.cons = s.cons := rfl
@[simp] theorem State.markFreezeLost_prog : s.markFreezeLost.prog = s.prog := rfl
@[simp] theorem State.markFreezeLost_dpc : s.markFreezeLost.dpc = s.dpc := rfl
@[simp] theorem State.markFreezeLost_rlog : s.markFreezeLost.rlog = s.rlog := rfl
@[simp] theorem State.markFreezeLost_refused : s.markFreezeLost.refused = s.refused := rfl
@[simp] theorem State.markFreezeLost_unsyncRead : s.markFreezeLost.unsyncRead = s.unsyncRead := rfl
@[simp] theorem State.markFreezeLost_freezeLost : s.markFreezeLost.freezeLost = (s.freezeLost || s.obsFrozen) := rfl
@[simp] theorem State.markFreezeLost_obsFrozen : s.markFreezeLost.obsFrozen = s.obsFrozen := rfl
@[simp] theorem State.markFreezeLost_rx : s.markFreezeLost.rx = s.rx := rfl
@[simp] theorem State.markFreezeLost_tx : s.markFreezeLost.tx = s.tx := rfl
@[simp] theorem State.markFreezeLost_txReady : s.markFreezeLost.txReady = s.txReady := rfl
@[simp] theorem State.markFreezeLost_sched : s.markFreezeLost.sched = s.sched := rfl
@[simp] theorem State.markFreezeLost_draws : s.markFreezeLost.draws = s.draws := rfl

/-! `State.advanceHead`. -/

@[simp] theorem State.advanceHead_buf : s.advanceHead.buf = s.buf := rfl
@[simp] theorem State.advanceHead_head : s.advanceHead.head = nextIndex s.head := rfl
@[simp] theorem State.advanceHead_hist : s.advanceHead.hist = s.hist := rfl
@[simp] theorem State.advanceHead_st : s.advanceHead.st = s.st := rfl
@[simp] theorem State.advanceHead_clkEn : s.advanceHead.clkEn = s.clkEn := rfl
@[simp] theorem State.advanceHead_duty : s.advanceHead.duty = s.duty := rfl
@[simp] theorem State.advanceHead_late : s.advanceHead.late = s.late := rfl
@[simp] theorem State.advanceHead_form : s.advanceHead.form = s.form := rfl
@[simp] theorem State.advanceHead_cons : s.advanceHead.cons = s.cons := rfl
@[simp] theorem State.advanceHead_prog : s.advanceHead.prog = s.prog := rfl
@[simp] theorem State.advanceHead_dpc : s.advanceHead.dpc = s.dpc := rfl
@[simp] theorem State.advanceHead_rlog : s.advanceHead.rlog = s.rlog := rfl
@[simp] theorem State.advanceHead_refused : s.advanceHead.refused = s.refused := rfl
@[simp] theorem State.advanceHead_unsyncRead : s.advanceHead.unsyncRead = s.unsyncRead := rfl
@[simp] theorem State.advanceHead_freezeLost : s.advanceHead.freezeLost = s.freezeLost := rfl
@[simp] theorem State.advanceHead_obsFrozen : s.advanceHead.obsFrozen = s.obsFrozen := rfl
@[simp] theorem State.advanceHead_rx : s.advanceHead.rx = s.rx := rfl
@[simp] theorem State.advanceHead_tx : s.advanceHead.tx = s.tx := rfl
@[simp] theorem State.advanceHead_txReady : s.advanceHead.txReady = s.txReady := rfl
@[simp] theorem State.advanceHead_sched : s.advanceHead.sched = s.sched := rfl
@[simp] theorem State.advanceHead_draws : s.advanceHead.draws = s.draws := rfl

/-! `State.shiftHist`. -/

@[simp] theorem State.shiftHist_buf (c : Bool) : (s.shiftHist c).buf = s.buf := rfl
@[simp] theorem State.shiftHist_head (c : Bool) : (s.shiftHist c).head = s.head := rfl
@[simp] theorem State.shiftHist_hist (c : Bool) : (s.shiftHist c).hist = histShift s.hist c := rfl
@[simp] theorem State.shiftHist_st (c : Bool) : (s.shiftHist c).st = s.st := rfl
@[simp] theorem State.shiftHist_clkEn (c : Bool) : (s.shiftHist c).clkEn = s.clkEn := rfl
@[simp] theorem State.shiftHist_duty (c : Bool) : (s.shiftHist c).duty = s.duty := rfl
@[simp] theorem State.shiftHist_late (c : Bool) : (s.shiftHist c).late = s.late := rfl
@[simp] theorem State.shiftHist_form (c : Bool) : (s.shiftHist c).form = s.form := rfl
@[simp] theorem State.shiftHist_cons (c : Bool) : (s.shiftHist c).cons = s.cons := rfl
@[simp] theorem State.shiftHist_prog (c : Bool) : (s.shiftHist c).prog = s.prog := rfl
@[simp] theorem State.shiftHist_dpc (c : Bool) : (s.shiftHist c).dpc = s.dpc := rfl
@[simp] theorem State.shiftHist_rlog (c : Bool) : (s.shiftHist c).rlog = s.rlog := rfl
@[simp] theorem State.shiftHist_refused (c : Bool) : (s.shiftHist c).refused = s.refused := rfl
@[simp] theorem State.shiftHist_unsyncRead (c : Bool) : (s.shiftHist c).unsyncRead = s.unsyncRead := rfl
@[simp] theorem State.shiftHist_freezeLost (c : Bool) : (s.shiftHist c).freezeLost = s.freezeLost := rfl
@[simp] theorem State.shiftHist_obsFrozen (c : Bool) : (s.shiftHist c).obsFrozen = s.obsFrozen := rfl
@[simp] theorem State.shiftHist_rx (c : Bool) : (s.shiftHist c).rx = s.rx := rfl
@[simp] theorem State.shiftHist_tx (c : Bool) : (s.shiftHist c).tx = s.tx := rfl
@[simp] theorem State.shiftHist_txReady (c : Bool) : (s.shiftHist c).txReady = s.txReady := rfl
@[simp] theorem State.shiftHist_sched (c : Bool) : (s.shiftHist c).sched = s.sched := rfl
@[simp] theorem State.shiftHist_draws (c : Bool) : (s.shiftHist c).draws = s.draws := rfl

/-! `State.stopClock`. -/

@[simp] theorem State.stopClock_buf : s.stopClock.buf = s.buf := rfl
@[simp] theorem State.stopClock_head : s.stopClock.head = s.head := rfl
@[simp] theorem State.stopClock_hist : s.stopClock.hist = s.hist := rfl
@[simp] theorem State.stopClock_st : s.stopClock.st = s.st := rfl
@[simp] theorem State.stopClock_clkEn : s.stopClock.clkEn = false := rfl
@[simp] theorem State.stopClock_duty : s.stopClock.duty = s.duty := rfl
@[simp] theorem State.stopClock_late : s.stopClock.late = if s.clkEn then Config.stopLateTicks else s.late := rfl
@[simp] theorem State.stopClock_form : s.stopClock.form = s.form := rfl
@[simp] theorem State.stopClock_cons : s.stopClock.cons = s.cons := rfl
@[simp] theorem State.stopClock_prog : s.stopClock.prog = s.prog := rfl
@[simp] theorem State.stopClock_dpc : s.stopClock.dpc = s.dpc := rfl
@[simp] theorem State.stopClock_rlog : s.stopClock.rlog = s.rlog := rfl
@[simp] theorem State.stopClock_refused : s.stopClock.refused = s.refused := rfl
@[simp] theorem State.stopClock_unsyncRead : s.stopClock.unsyncRead = s.unsyncRead := rfl
@[simp] theorem State.stopClock_freezeLost : s.stopClock.freezeLost = s.freezeLost := rfl
@[simp] theorem State.stopClock_obsFrozen : s.stopClock.obsFrozen = false := rfl
@[simp] theorem State.stopClock_rx : s.stopClock.rx = s.rx := rfl
@[simp] theorem State.stopClock_tx : s.stopClock.tx = s.tx := rfl
@[simp] theorem State.stopClock_txReady : s.stopClock.txReady = s.txReady := rfl
@[simp] theorem State.stopClock_sched : s.stopClock.sched = s.sched := rfl
@[simp] theorem State.stopClock_draws : s.stopClock.draws = s.draws := rfl

/-! `State.startClock`. -/

@[simp] theorem State.startClock_buf : s.startClock.buf = s.buf := rfl
@[simp] theorem State.startClock_head : s.startClock.head = s.head := rfl
@[simp] theorem State.startClock_hist : s.startClock.hist = s.hist := rfl
@[simp] theorem State.startClock_st : s.startClock.st = s.st := rfl
@[simp] theorem State.startClock_clkEn : s.startClock.clkEn = true := rfl
@[simp] theorem State.startClock_duty : s.startClock.duty = s.duty := rfl
@[simp] theorem State.startClock_late : s.startClock.late = 0 := rfl
@[simp] theorem State.startClock_form : s.startClock.form = s.form := rfl
@[simp] theorem State.startClock_cons : s.startClock.cons = s.cons := rfl
@[simp] theorem State.startClock_prog : s.startClock.prog = s.prog := rfl
@[simp] theorem State.startClock_dpc : s.startClock.dpc = s.dpc := rfl
@[simp] theorem State.startClock_rlog : s.startClock.rlog = s.rlog := rfl
@[simp] theorem State.startClock_refused : s.startClock.refused = s.refused := rfl
@[simp] theorem State.startClock_unsyncRead : s.startClock.unsyncRead = s.unsyncRead := rfl
@[simp] theorem State.startClock_freezeLost : s.startClock.freezeLost = s.freezeLost := rfl
@[simp] theorem State.startClock_obsFrozen : s.startClock.obsFrozen = s.obsFrozen := rfl
@[simp] theorem State.startClock_rx : s.startClock.rx = s.rx := rfl
@[simp] theorem State.startClock_tx : s.startClock.tx = s.tx := rfl
@[simp] theorem State.startClock_txReady : s.startClock.txReady = s.txReady := rfl
@[simp] theorem State.startClock_sched : s.startClock.sched = s.sched := rfl
@[simp] theorem State.startClock_draws : s.startClock.draws = s.draws := rfl

/-! `State.setObsFrozen`. -/

@[simp] theorem State.setObsFrozen_buf (b : Bool) : (s.setObsFrozen b).buf = s.buf := rfl
@[simp] theorem State.setObsFrozen_head (b : Bool) : (s.setObsFrozen b).head = s.head := rfl
@[simp] theorem State.setObsFrozen_hist (b : Bool) : (s.setObsFrozen b).hist = s.hist := rfl
@[simp] theorem State.setObsFrozen_st (b : Bool) : (s.setObsFrozen b).st = s.st := rfl
@[simp] theorem State.setObsFrozen_clkEn (b : Bool) : (s.setObsFrozen b).clkEn = s.clkEn := rfl
@[simp] theorem State.setObsFrozen_duty (b : Bool) : (s.setObsFrozen b).duty = s.duty := rfl
@[simp] theorem State.setObsFrozen_late (b : Bool) : (s.setObsFrozen b).late = s.late := rfl
@[simp] theorem State.setObsFrozen_form (b : Bool) : (s.setObsFrozen b).form = s.form := rfl
@[simp] theorem State.setObsFrozen_cons (b : Bool) : (s.setObsFrozen b).cons = s.cons := rfl
@[simp] theorem State.setObsFrozen_prog (b : Bool) : (s.setObsFrozen b).prog = s.prog := rfl
@[simp] theorem State.setObsFrozen_dpc (b : Bool) : (s.setObsFrozen b).dpc = s.dpc := rfl
@[simp] theorem State.setObsFrozen_rlog (b : Bool) : (s.setObsFrozen b).rlog = s.rlog := rfl
@[simp] theorem State.setObsFrozen_refused (b : Bool) : (s.setObsFrozen b).refused = s.refused := rfl
@[simp] theorem State.setObsFrozen_unsyncRead (b : Bool) : (s.setObsFrozen b).unsyncRead = s.unsyncRead := rfl
@[simp] theorem State.setObsFrozen_freezeLost (b : Bool) : (s.setObsFrozen b).freezeLost = s.freezeLost := rfl
@[simp] theorem State.setObsFrozen_obsFrozen (b : Bool) : (s.setObsFrozen b).obsFrozen = b := rfl
@[simp] theorem State.setObsFrozen_rx (b : Bool) : (s.setObsFrozen b).rx = s.rx := rfl
@[simp] theorem State.setObsFrozen_tx (b : Bool) : (s.setObsFrozen b).tx = s.tx := rfl
@[simp] theorem State.setObsFrozen_txReady (b : Bool) : (s.setObsFrozen b).txReady = s.txReady := rfl
@[simp] theorem State.setObsFrozen_sched (b : Bool) : (s.setObsFrozen b).sched = s.sched := rfl
@[simp] theorem State.setObsFrozen_draws (b : Bool) : (s.setObsFrozen b).draws = s.draws := rfl

/-! `State.markUnsync`. -/

@[simp] theorem State.markUnsync_buf : s.markUnsync.buf = s.buf := rfl
@[simp] theorem State.markUnsync_head : s.markUnsync.head = s.head := rfl
@[simp] theorem State.markUnsync_hist : s.markUnsync.hist = s.hist := rfl
@[simp] theorem State.markUnsync_st : s.markUnsync.st = s.st := rfl
@[simp] theorem State.markUnsync_clkEn : s.markUnsync.clkEn = s.clkEn := rfl
@[simp] theorem State.markUnsync_duty : s.markUnsync.duty = s.duty := rfl
@[simp] theorem State.markUnsync_late : s.markUnsync.late = s.late := rfl
@[simp] theorem State.markUnsync_form : s.markUnsync.form = s.form := rfl
@[simp] theorem State.markUnsync_cons : s.markUnsync.cons = s.cons := rfl
@[simp] theorem State.markUnsync_prog : s.markUnsync.prog = s.prog := rfl
@[simp] theorem State.markUnsync_dpc : s.markUnsync.dpc = s.dpc := rfl
@[simp] theorem State.markUnsync_rlog : s.markUnsync.rlog = s.rlog := rfl
@[simp] theorem State.markUnsync_refused : s.markUnsync.refused = s.refused := rfl
@[simp] theorem State.markUnsync_unsyncRead : s.markUnsync.unsyncRead = (s.unsyncRead || s.clkEn) := rfl
@[simp] theorem State.markUnsync_freezeLost : s.markUnsync.freezeLost = s.freezeLost := rfl
@[simp] theorem State.markUnsync_obsFrozen : s.markUnsync.obsFrozen = s.obsFrozen := rfl
@[simp] theorem State.markUnsync_rx : s.markUnsync.rx = s.rx := rfl
@[simp] theorem State.markUnsync_tx : s.markUnsync.tx = s.tx := rfl
@[simp] theorem State.markUnsync_txReady : s.markUnsync.txReady = s.txReady := rfl
@[simp] theorem State.markUnsync_sched : s.markUnsync.sched = s.sched := rfl
@[simp] theorem State.markUnsync_draws : s.markUnsync.draws = s.draws := rfl

/-! `State.setCons`. -/

@[simp] theorem State.setCons_buf (c : Cons) : (s.setCons c).buf = s.buf := rfl
@[simp] theorem State.setCons_head (c : Cons) : (s.setCons c).head = s.head := rfl
@[simp] theorem State.setCons_hist (c : Cons) : (s.setCons c).hist = s.hist := rfl
@[simp] theorem State.setCons_st (c : Cons) : (s.setCons c).st = s.st := rfl
@[simp] theorem State.setCons_clkEn (c : Cons) : (s.setCons c).clkEn = s.clkEn := rfl
@[simp] theorem State.setCons_duty (c : Cons) : (s.setCons c).duty = s.duty := rfl
@[simp] theorem State.setCons_late (c : Cons) : (s.setCons c).late = s.late := rfl
@[simp] theorem State.setCons_form (c : Cons) : (s.setCons c).form = s.form := rfl
@[simp] theorem State.setCons_cons (c : Cons) : (s.setCons c).cons = c := rfl
@[simp] theorem State.setCons_prog (c : Cons) : (s.setCons c).prog = s.prog := rfl
@[simp] theorem State.setCons_dpc (c : Cons) : (s.setCons c).dpc = s.dpc := rfl
@[simp] theorem State.setCons_rlog (c : Cons) : (s.setCons c).rlog = s.rlog := rfl
@[simp] theorem State.setCons_refused (c : Cons) : (s.setCons c).refused = s.refused := rfl
@[simp] theorem State.setCons_unsyncRead (c : Cons) : (s.setCons c).unsyncRead = s.unsyncRead := rfl
@[simp] theorem State.setCons_freezeLost (c : Cons) : (s.setCons c).freezeLost = s.freezeLost := rfl
@[simp] theorem State.setCons_obsFrozen (c : Cons) : (s.setCons c).obsFrozen = s.obsFrozen := rfl
@[simp] theorem State.setCons_rx (c : Cons) : (s.setCons c).rx = s.rx := rfl
@[simp] theorem State.setCons_tx (c : Cons) : (s.setCons c).tx = s.tx := rfl
@[simp] theorem State.setCons_txReady (c : Cons) : (s.setCons c).txReady = s.txReady := rfl
@[simp] theorem State.setCons_sched (c : Cons) : (s.setCons c).sched = s.sched := rfl
@[simp] theorem State.setCons_draws (c : Cons) : (s.setCons c).draws = s.draws := rfl

/-! `State.setDuty`. -/

@[simp] theorem State.setDuty_buf (v : Byte) : (s.setDuty v).buf = s.buf := rfl
@[simp] theorem State.setDuty_head (v : Byte) : (s.setDuty v).head = s.head := rfl
@[simp] theorem State.setDuty_hist (v : Byte) : (s.setDuty v).hist = s.hist := rfl
@[simp] theorem State.setDuty_st (v : Byte) : (s.setDuty v).st = s.st := rfl
@[simp] theorem State.setDuty_clkEn (v : Byte) : (s.setDuty v).clkEn = s.clkEn := rfl
@[simp] theorem State.setDuty_duty (v : Byte) : (s.setDuty v).duty = v := rfl
@[simp] theorem State.setDuty_late (v : Byte) : (s.setDuty v).late = s.late := rfl
@[simp] theorem State.setDuty_form (v : Byte) : (s.setDuty v).form = s.form := rfl
@[simp] theorem State.setDuty_cons (v : Byte) : (s.setDuty v).cons = s.cons := rfl
@[simp] theorem State.setDuty_prog (v : Byte) : (s.setDuty v).prog = s.prog := rfl
@[simp] theorem State.setDuty_dpc (v : Byte) : (s.setDuty v).dpc = s.dpc := rfl
@[simp] theorem State.setDuty_rlog (v : Byte) : (s.setDuty v).rlog = s.rlog := rfl
@[simp] theorem State.setDuty_refused (v : Byte) : (s.setDuty v).refused = s.refused := rfl
@[simp] theorem State.setDuty_unsyncRead (v : Byte) : (s.setDuty v).unsyncRead = s.unsyncRead := rfl
@[simp] theorem State.setDuty_freezeLost (v : Byte) : (s.setDuty v).freezeLost = s.freezeLost := rfl
@[simp] theorem State.setDuty_obsFrozen (v : Byte) : (s.setDuty v).obsFrozen = s.obsFrozen := rfl
@[simp] theorem State.setDuty_rx (v : Byte) : (s.setDuty v).rx = s.rx := rfl
@[simp] theorem State.setDuty_tx (v : Byte) : (s.setDuty v).tx = s.tx := rfl
@[simp] theorem State.setDuty_txReady (v : Byte) : (s.setDuty v).txReady = s.txReady := rfl
@[simp] theorem State.setDuty_sched (v : Byte) : (s.setDuty v).sched = s.sched := rfl
@[simp] theorem State.setDuty_draws (v : Byte) : (s.setDuty v).draws = s.draws := rfl

/-! `State.setRx`. -/

@[simp] theorem State.setRx_buf (bs : List Byte) : (s.setRx bs).buf = s.buf := rfl
@[simp] theorem State.setRx_head (bs : List Byte) : (s.setRx bs).head = s.head := rfl
@[simp] theorem State.setRx_hist (bs : List Byte) : (s.setRx bs).hist = s.hist := rfl
@[simp] theorem State.setRx_st (bs : List Byte) : (s.setRx bs).st = s.st := rfl
@[simp] theorem State.setRx_clkEn (bs : List Byte) : (s.setRx bs).clkEn = s.clkEn := rfl
@[simp] theorem State.setRx_duty (bs : List Byte) : (s.setRx bs).duty = s.duty := rfl
@[simp] theorem State.setRx_late (bs : List Byte) : (s.setRx bs).late = s.late := rfl
@[simp] theorem State.setRx_form (bs : List Byte) : (s.setRx bs).form = s.form := rfl
@[simp] theorem State.setRx_cons (bs : List Byte) : (s.setRx bs).cons = s.cons := rfl
@[simp] theorem State.setRx_prog (bs : List Byte) : (s.setRx bs).prog = s.prog := rfl
@[simp] theorem State.setRx_dpc (bs : List Byte) : (s.setRx bs).dpc = s.dpc := rfl
@[simp] theorem State.setRx_rlog (bs : List Byte) : (s.setRx bs).rlog = s.rlog := rfl
@[simp] theorem State.setRx_refused (bs : List Byte) : (s.setRx bs).refused = s.refused := rfl
@[simp] theorem State.setRx_unsyncRead (bs : List Byte) : (s.setRx bs).unsyncRead = s.unsyncRead := rfl
@[simp] theorem State.setRx_freezeLost (bs : List Byte) : (s.setRx bs).freezeLost = s.freezeLost := rfl
@[simp] theorem State.setRx_obsFrozen (bs : List Byte) : (s.setRx bs).obsFrozen = s.obsFrozen := rfl
@[simp] theorem State.setRx_rx (bs : List Byte) : (s.setRx bs).rx = bs := rfl
@[simp] theorem State.setRx_tx (bs : List Byte) : (s.setRx bs).tx = s.tx := rfl
@[simp] theorem State.setRx_txReady (bs : List Byte) : (s.setRx bs).txReady = s.txReady := rfl
@[simp] theorem State.setRx_sched (bs : List Byte) : (s.setRx bs).sched = s.sched := rfl
@[simp] theorem State.setRx_draws (bs : List Byte) : (s.setRx bs).draws = s.draws := rfl

/-! `State.send`. -/

@[simp] theorem State.send_buf (b : Byte) : (s.send b).buf = s.buf := rfl
@[simp] theorem State.send_head (b : Byte) : (s.send b).head = s.head := rfl
@[simp] theorem State.send_hist (b : Byte) : (s.send b).hist = s.hist := rfl
@[simp] theorem State.send_st (b : Byte) : (s.send b).st = s.st := rfl
@[simp] theorem State.send_clkEn (b : Byte) : (s.send b).clkEn = s.clkEn := rfl
@[simp] theorem State.send_duty (b : Byte) : (s.send b).duty = s.duty := rfl
@[simp] theorem State.send_late (b : Byte) : (s.send b).late = s.late := rfl
@[simp] theorem State.send_form (b : Byte) : (s.send b).form = s.form := rfl
@[simp] theorem State.send_cons (b : Byte) : (s.send b).cons = s.cons := rfl
@[simp] theorem State.send_prog (b : Byte) : (s.send b).prog = s.prog := rfl
@[simp] theorem State.send_dpc (b : Byte) : (s.send b).dpc = s.dpc := rfl
@[simp] theorem State.send_rlog (b : Byte) : (s.send b).rlog = s.rlog := rfl
@[simp] theorem State.send_refused (b : Byte) : (s.send b).refused = s.refused := rfl
@[simp] theorem State.send_unsyncRead (b : Byte) : (s.send b).unsyncRead = s.unsyncRead := rfl
@[simp] theorem State.send_freezeLost (b : Byte) : (s.send b).freezeLost = s.freezeLost := rfl
@[simp] theorem State.send_obsFrozen (b : Byte) : (s.send b).obsFrozen = s.obsFrozen := rfl
@[simp] theorem State.send_rx (b : Byte) : (s.send b).rx = s.rx := rfl
@[simp] theorem State.send_tx (b : Byte) : (s.send b).tx = s.tx ++ [b] := rfl
@[simp] theorem State.send_txReady (b : Byte) : (s.send b).txReady = false := rfl
@[simp] theorem State.send_sched (b : Byte) : (s.send b).sched = s.sched := rfl
@[simp] theorem State.send_draws (b : Byte) : (s.send b).draws = s.draws := rfl

/-! `State.hostSend`. -/

@[simp] theorem State.hostSend_buf (b : Byte) : (s.hostSend b).buf = s.buf := rfl
@[simp] theorem State.hostSend_head (b : Byte) : (s.hostSend b).head = s.head := rfl
@[simp] theorem State.hostSend_hist (b : Byte) : (s.hostSend b).hist = s.hist := rfl
@[simp] theorem State.hostSend_st (b : Byte) : (s.hostSend b).st = s.st := rfl
@[simp] theorem State.hostSend_clkEn (b : Byte) : (s.hostSend b).clkEn = s.clkEn := rfl
@[simp] theorem State.hostSend_duty (b : Byte) : (s.hostSend b).duty = s.duty := rfl
@[simp] theorem State.hostSend_late (b : Byte) : (s.hostSend b).late = s.late := rfl
@[simp] theorem State.hostSend_form (b : Byte) : (s.hostSend b).form = s.form := rfl
@[simp] theorem State.hostSend_cons (b : Byte) : (s.hostSend b).cons = s.cons := rfl
@[simp] theorem State.hostSend_prog (b : Byte) : (s.hostSend b).prog = s.prog := rfl
@[simp] theorem State.hostSend_dpc (b : Byte) : (s.hostSend b).dpc = s.dpc := rfl
@[simp] theorem State.hostSend_rlog (b : Byte) : (s.hostSend b).rlog = s.rlog := rfl
@[simp] theorem State.hostSend_refused (b : Byte) : (s.hostSend b).refused = s.refused := rfl
@[simp] theorem State.hostSend_unsyncRead (b : Byte) : (s.hostSend b).unsyncRead = s.unsyncRead := rfl
@[simp] theorem State.hostSend_freezeLost (b : Byte) : (s.hostSend b).freezeLost = s.freezeLost := rfl
@[simp] theorem State.hostSend_obsFrozen (b : Byte) : (s.hostSend b).obsFrozen = s.obsFrozen := rfl
@[simp] theorem State.hostSend_rx (b : Byte) : (s.hostSend b).rx = s.rx ++ [b] := rfl
@[simp] theorem State.hostSend_tx (b : Byte) : (s.hostSend b).tx = s.tx := rfl
@[simp] theorem State.hostSend_txReady (b : Byte) : (s.hostSend b).txReady = s.txReady := rfl
@[simp] theorem State.hostSend_sched (b : Byte) : (s.hostSend b).sched = s.sched := rfl
@[simp] theorem State.hostSend_draws (b : Byte) : (s.hostSend b).draws = s.draws := rfl

/-! `State.hostAccept`. -/

@[simp] theorem State.hostAccept_buf : s.hostAccept.buf = s.buf := rfl
@[simp] theorem State.hostAccept_head : s.hostAccept.head = s.head := rfl
@[simp] theorem State.hostAccept_hist : s.hostAccept.hist = s.hist := rfl
@[simp] theorem State.hostAccept_st : s.hostAccept.st = s.st := rfl
@[simp] theorem State.hostAccept_clkEn : s.hostAccept.clkEn = s.clkEn := rfl
@[simp] theorem State.hostAccept_duty : s.hostAccept.duty = s.duty := rfl
@[simp] theorem State.hostAccept_late : s.hostAccept.late = s.late := rfl
@[simp] theorem State.hostAccept_form : s.hostAccept.form = s.form := rfl
@[simp] theorem State.hostAccept_cons : s.hostAccept.cons = s.cons := rfl
@[simp] theorem State.hostAccept_prog : s.hostAccept.prog = s.prog := rfl
@[simp] theorem State.hostAccept_dpc : s.hostAccept.dpc = s.dpc := rfl
@[simp] theorem State.hostAccept_rlog : s.hostAccept.rlog = s.rlog := rfl
@[simp] theorem State.hostAccept_refused : s.hostAccept.refused = s.refused := rfl
@[simp] theorem State.hostAccept_unsyncRead : s.hostAccept.unsyncRead = s.unsyncRead := rfl
@[simp] theorem State.hostAccept_freezeLost : s.hostAccept.freezeLost = s.freezeLost := rfl
@[simp] theorem State.hostAccept_obsFrozen : s.hostAccept.obsFrozen = s.obsFrozen := rfl
@[simp] theorem State.hostAccept_rx : s.hostAccept.rx = s.rx := rfl
@[simp] theorem State.hostAccept_tx : s.hostAccept.tx = s.tx := rfl
@[simp] theorem State.hostAccept_txReady : s.hostAccept.txReady = true := rfl
@[simp] theorem State.hostAccept_sched : s.hostAccept.sched = s.sched := rfl
@[simp] theorem State.hostAccept_draws : s.hostAccept.draws = s.draws := rfl

/-! `State.markRefused`. -/

@[simp] theorem State.markRefused_buf : s.markRefused.buf = s.buf := rfl
@[simp] theorem State.markRefused_head : s.markRefused.head = s.head := rfl
@[simp] theorem State.markRefused_hist : s.markRefused.hist = s.hist := rfl
@[simp] theorem State.markRefused_st : s.markRefused.st = s.st := rfl
@[simp] theorem State.markRefused_clkEn : s.markRefused.clkEn = s.clkEn := rfl
@[simp] theorem State.markRefused_duty : s.markRefused.duty = s.duty := rfl
@[simp] theorem State.markRefused_late : s.markRefused.late = s.late := rfl
@[simp] theorem State.markRefused_form : s.markRefused.form = s.form := rfl
@[simp] theorem State.markRefused_cons : s.markRefused.cons = s.cons := rfl
@[simp] theorem State.markRefused_prog : s.markRefused.prog = s.prog := rfl
@[simp] theorem State.markRefused_dpc : s.markRefused.dpc = s.dpc := rfl
@[simp] theorem State.markRefused_rlog : s.markRefused.rlog = s.rlog := rfl
@[simp] theorem State.markRefused_refused : s.markRefused.refused = true := rfl
@[simp] theorem State.markRefused_unsyncRead : s.markRefused.unsyncRead = s.unsyncRead := rfl
@[simp] theorem State.markRefused_freezeLost : s.markRefused.freezeLost = s.freezeLost := rfl
@[simp] theorem State.markRefused_obsFrozen : s.markRefused.obsFrozen = s.obsFrozen := rfl
@[simp] theorem State.markRefused_rx : s.markRefused.rx = s.rx := rfl
@[simp] theorem State.markRefused_tx : s.markRefused.tx = s.tx := rfl
@[simp] theorem State.markRefused_txReady : s.markRefused.txReady = s.txReady := rfl
@[simp] theorem State.markRefused_sched : s.markRefused.sched = s.sched := rfl
@[simp] theorem State.markRefused_draws : s.markRefused.draws = s.draws := rfl

/-! `State.advanceDpc`. -/

@[simp] theorem State.advanceDpc_buf : s.advanceDpc.buf = s.buf := rfl
@[simp] theorem State.advanceDpc_head : s.advanceDpc.head = s.head := rfl
@[simp] theorem State.advanceDpc_hist : s.advanceDpc.hist = s.hist := rfl
@[simp] theorem State.advanceDpc_st : s.advanceDpc.st = s.st := rfl
@[simp] theorem State.advanceDpc_clkEn : s.advanceDpc.clkEn = s.clkEn := rfl
@[simp] theorem State.advanceDpc_duty : s.advanceDpc.duty = s.duty := rfl
@[simp] theorem State.advanceDpc_late : s.advanceDpc.late = s.late := rfl
@[simp] theorem State.advanceDpc_form : s.advanceDpc.form = s.form := rfl
@[simp] theorem State.advanceDpc_cons : s.advanceDpc.cons = s.cons := rfl
@[simp] theorem State.advanceDpc_prog : s.advanceDpc.prog = s.prog := rfl
@[simp] theorem State.advanceDpc_dpc : s.advanceDpc.dpc = s.dpc + 1 := rfl
@[simp] theorem State.advanceDpc_rlog : s.advanceDpc.rlog = s.rlog := rfl
@[simp] theorem State.advanceDpc_refused : s.advanceDpc.refused = s.refused := rfl
@[simp] theorem State.advanceDpc_unsyncRead : s.advanceDpc.unsyncRead = s.unsyncRead := rfl
@[simp] theorem State.advanceDpc_freezeLost : s.advanceDpc.freezeLost = s.freezeLost := rfl
@[simp] theorem State.advanceDpc_obsFrozen : s.advanceDpc.obsFrozen = s.obsFrozen := rfl
@[simp] theorem State.advanceDpc_rx : s.advanceDpc.rx = s.rx := rfl
@[simp] theorem State.advanceDpc_tx : s.advanceDpc.tx = s.tx := rfl
@[simp] theorem State.advanceDpc_txReady : s.advanceDpc.txReady = s.txReady := rfl
@[simp] theorem State.advanceDpc_sched : s.advanceDpc.sched = s.sched := rfl
@[simp] theorem State.advanceDpc_draws : s.advanceDpc.draws = s.draws := rfl

/-! `State.setSched`. -/

@[simp] theorem State.setSched_buf (ts : List Turn) : (s.setSched ts).buf = s.buf := rfl
@[simp] theorem State.setSched_head (ts : List Turn) : (s.setSched ts).head = s.head := rfl
@[simp] theorem State.setSched_hist (ts : List Turn) : (s.setSched ts).hist = s.hist := rfl
@[simp] theorem State.setSched_st (ts : List Turn) : (s.setSched ts).st = s.st := rfl
@[simp] theorem State.setSched_clkEn (ts : List Turn) : (s.setSched ts).clkEn = s.clkEn := rfl
@[simp] theorem State.setSched_duty (ts : List Turn) : (s.setSched ts).duty = s.duty := rfl
@[simp] theorem State.setSched_late (ts : List Turn) : (s.setSched ts).late = s.late := rfl
@[simp] theorem State.setSched_form (ts : List Turn) : (s.setSched ts).form = s.form := rfl
@[simp] theorem State.setSched_cons (ts : List Turn) : (s.setSched ts).cons = s.cons := rfl
@[simp] theorem State.setSched_prog (ts : List Turn) : (s.setSched ts).prog = s.prog := rfl
@[simp] theorem State.setSched_dpc (ts : List Turn) : (s.setSched ts).dpc = s.dpc := rfl
@[simp] theorem State.setSched_rlog (ts : List Turn) : (s.setSched ts).rlog = s.rlog := rfl
@[simp] theorem State.setSched_refused (ts : List Turn) : (s.setSched ts).refused = s.refused := rfl
@[simp] theorem State.setSched_unsyncRead (ts : List Turn) : (s.setSched ts).unsyncRead = s.unsyncRead := rfl
@[simp] theorem State.setSched_freezeLost (ts : List Turn) : (s.setSched ts).freezeLost = s.freezeLost := rfl
@[simp] theorem State.setSched_obsFrozen (ts : List Turn) : (s.setSched ts).obsFrozen = s.obsFrozen := rfl
@[simp] theorem State.setSched_rx (ts : List Turn) : (s.setSched ts).rx = s.rx := rfl
@[simp] theorem State.setSched_tx (ts : List Turn) : (s.setSched ts).tx = s.tx := rfl
@[simp] theorem State.setSched_txReady (ts : List Turn) : (s.setSched ts).txReady = s.txReady := rfl
@[simp] theorem State.setSched_sched (ts : List Turn) : (s.setSched ts).sched = ts := rfl
@[simp] theorem State.setSched_draws (ts : List Turn) : (s.setSched ts).draws = s.draws := rfl

/-! `State.logResult`. -/

@[simp] theorem State.logResult_buf {w : Nat} (r : BitVec w × State) : (State.logResult r).buf = r.2.buf := rfl
@[simp] theorem State.logResult_head {w : Nat} (r : BitVec w × State) : (State.logResult r).head = r.2.head := rfl
@[simp] theorem State.logResult_hist {w : Nat} (r : BitVec w × State) : (State.logResult r).hist = r.2.hist := rfl
@[simp] theorem State.logResult_st {w : Nat} (r : BitVec w × State) : (State.logResult r).st = r.2.st := rfl
@[simp] theorem State.logResult_clkEn {w : Nat} (r : BitVec w × State) : (State.logResult r).clkEn = r.2.clkEn := rfl
@[simp] theorem State.logResult_duty {w : Nat} (r : BitVec w × State) : (State.logResult r).duty = r.2.duty := rfl
@[simp] theorem State.logResult_late {w : Nat} (r : BitVec w × State) : (State.logResult r).late = r.2.late := rfl
@[simp] theorem State.logResult_form {w : Nat} (r : BitVec w × State) : (State.logResult r).form = r.2.form := rfl
@[simp] theorem State.logResult_cons {w : Nat} (r : BitVec w × State) : (State.logResult r).cons = r.2.cons := rfl
@[simp] theorem State.logResult_prog {w : Nat} (r : BitVec w × State) : (State.logResult r).prog = r.2.prog := rfl
@[simp] theorem State.logResult_dpc {w : Nat} (r : BitVec w × State) : (State.logResult r).dpc = r.2.dpc := rfl
@[simp] theorem State.logResult_rlog {w : Nat} (r : BitVec w × State) : (State.logResult r).rlog = r.2.rlog ++ [zext16 r.1] := rfl
@[simp] theorem State.logResult_refused {w : Nat} (r : BitVec w × State) : (State.logResult r).refused = r.2.refused := rfl
@[simp] theorem State.logResult_unsyncRead {w : Nat} (r : BitVec w × State) : (State.logResult r).unsyncRead = r.2.unsyncRead := rfl
@[simp] theorem State.logResult_freezeLost {w : Nat} (r : BitVec w × State) : (State.logResult r).freezeLost = r.2.freezeLost := rfl
@[simp] theorem State.logResult_obsFrozen {w : Nat} (r : BitVec w × State) : (State.logResult r).obsFrozen = r.2.obsFrozen := rfl
@[simp] theorem State.logResult_rx {w : Nat} (r : BitVec w × State) : (State.logResult r).rx = r.2.rx := rfl
@[simp] theorem State.logResult_tx {w : Nat} (r : BitVec w × State) : (State.logResult r).tx = r.2.tx := rfl
@[simp] theorem State.logResult_txReady {w : Nat} (r : BitVec w × State) : (State.logResult r).txReady = r.2.txReady := rfl
@[simp] theorem State.logResult_sched {w : Nat} (r : BitVec w × State) : (State.logResult r).sched = r.2.sched := rfl
@[simp] theorem State.logResult_draws {w : Nat} (r : BitVec w × State) : (State.logResult r).draws = r.2.draws := rfl

end Sys2Proof.Machine
end

