-- ==== Sys2Proof/Laws/Ops.lean ====
section
/-! SUPPORT. One law per shared operation: what it can do, said once. -/
namespace Sys2Proof.Machine

/-! Index arithmetic is arithmetic modulo `N` (R125, R126, R154). -/

theorem nextIndex_toNat (h : Index) : (nextIndex h).toNat = (h.toNat + 1) % 1024 := by
  simp [nextIndex, BitVec.toNat_add]

theorem stopIndexFor_toNat (h : Index) : (stopIndexFor h).toNat = (h.toNat + 512) % 1024 := by
  simp [stopIndexFor, Config.half, BitVec.toNat_add]

theorem chronIndex_toNat (h j : Index) : (chronIndex h j).toNat = (h.toNat + j.toNat) % 1024 := by
  simp [chronIndex, BitVec.toNat_add]

/-! The qualifier (R100, R102). -/

theorem qualify_iff (h : Byte) (st : Trigger) (c : Bool) :
    qualify h st c = true ↔ st = .idle ∧ h = 0#8 ∧ c = true := by
  simp [qualify, Config.qPattern, and_assoc]

theorem histShift_getLsbD_zero (h : Byte) (c : Bool) : (histShift h c).getLsbD 0 = c := by
  cases c <;> simp [histShift]

theorem histShift_getLsbD_succ (h : Byte) (c : Bool) {i : Nat} (hi : i < 7) :
    (histShift h c).getLsbD (i + 1) = h.getLsbD i := by
  have h1 : i + 1 < 8 := by omega
  have h2 : i < 8 := by omega
  cases c <;> simp [histShift, h1, h2, BitVec.getLsbD_eq_getElem]

/-! STATUS (R152). -/

theorem State.status_toNat (s : State) :
    s.status.toNat = 4 * s.clkEn.toNat + (match s.st with | .idle => 0 | .armed _ => 2 | .frozen => 1) := by
  cases h : s.st <;> cases h' : s.clkEn <;>
    simp [State.status, h, h', Trigger.isArmed, Trigger.isFrozen]

theorem State.status_getLsbD_zero (s : State) : s.status.getLsbD 0 = decide (s.st = .frozen) := by
  cases h : s.st <;> cases h' : s.clkEn <;>
    simp [State.status, h, h', Trigger.isArmed, Trigger.isFrozen]

/-! Reading the buffer (R51). -/

theorem State.memRead_written {s : State} {a : Index} {v : Byte} (h : s.cell a = some v) :
    s.memRead a = (v, s) := by
  simp [State.memRead, h]

theorem State.memRead_unwritten {s : State} {a : Index} (h : s.cell a = none) :
    s.memRead a = (Config.freeByte s.draws, s.nextDraw) := by
  simp [State.memRead, State.drawByte, h]

/-- A read leaves the state as it is, or uses one free value. -/
theorem State.memRead_cases (s : State) (a : Index) :
    (s.memRead a).2 = s ∨ (s.memRead a).2 = s.nextDraw := by
  cases h : s.cell a with
  | some v => exact .inl (by rw [State.memRead_written h])
  | none => exact .inr (by rw [State.memRead_unwritten h])

/-- RD_PHYS of a written cell (R153). -/
theorem State.readPhys_written {s : State} {a : Index} {v : Byte} (h : s.cell a = some v) :
    s.readPhys a = (v, s.markUnsync) :=
  State.memRead_written (s := s.markUnsync) h

/-- RD_PHYS of an `Unwritten` cell (R153, R51). -/
theorem State.readPhys_unwritten {s : State} {a : Index} (h : s.cell a = none) :
    s.readPhys a = (Config.freeByte s.draws, s.markUnsync.nextDraw) :=
  State.memRead_unwritten (s := s.markUnsync) h

/-- The cell the readout mux selects (R154). -/
theorem State.cell_chronIndex (s : State) (j : Index) :
    s.cell (chronIndex s.head j) = Memory.read s.buf ((s.head.toNat + j.toNat) % 1024) := by
  simp [State.cell, chronIndex_toNat]

/-- RD_CHRON of a written cell (R154). -/
theorem State.readChron_written {s : State} {j : Index} {v : Byte}
    (h : Memory.read s.buf ((s.head.toNat + j.toNat) % 1024) = some v) :
    s.readChron j = (v, s.markUnsync) :=
  State.readPhys_written ((s.cell_chronIndex j).trans h)

/-- RD_CHRON of an `Unwritten` cell (R154, R51). -/
theorem State.readChron_unwritten {s : State} {j : Index}
    (h : Memory.read s.buf ((s.head.toNat + j.toNat) % 1024) = none) :
    s.readChron j = (Config.freeByte s.draws, s.markUnsync.nextDraw) :=
  State.readPhys_unwritten ((s.cell_chronIndex j).trans h)

/-- RD_PHYS sets the mark and leaves the rest, but for a free value used. -/
theorem State.readPhys_cases (s : State) (a : Index) :
    (s.readPhys a).2 = s.markUnsync ∨ (s.readPhys a).2 = s.markUnsync.nextDraw :=
  State.memRead_cases s.markUnsync a

/-- RD_CHRON likewise. -/
theorem State.readChron_cases (s : State) (j : Index) :
    (s.readChron j).2 = s.markUnsync ∨ (s.readChron j).2 = s.markUnsync.nextDraw :=
  State.readPhys_cases s _

/-- RD_STOP leaves the state, but for a free value used. -/
theorem State.readStop_cases (s : State) : s.readStop.2 = s ∨ s.readStop.2 = s.nextDraw := by
  cases h : s.st <;> simp [State.readStop, h, State.drawIndex]

/-- TVAL leaves the state, but for a free value used. -/
theorem State.parseLevel_cases (s : State) (d0 d1 d2 : Byte) :
    (s.parseLevel d0 d1 d2).2 = s ∨ (s.parseLevel d0 d1 d2).2 = s.nextDraw := by
  cases h : levelValue d0 d1 d2 <;> simp [State.parseLevel, h, State.drawByte]

/-- The next turn is taken from the schedule, or a free value is used. -/
theorem State.takeTurn_cases (s : State) :
    (∃ t ts, s.sched = t :: ts ∧ s.takeTurn = (t, s.setSched ts)) ∨
    (s.sched = [] ∧ s.takeTurn = (Config.freeTurn s.draws, s.nextDraw)) := by
  cases h : s.sched with
  | nil => exact .inr ⟨rfl, by simp [State.takeTurn, h]⟩
  | cons t ts => exact .inl ⟨t, ts, rfl, by simp [State.takeTurn, h]⟩

/-! The tick (R120 to R128). -/

/-- Steps 2, 3 and 4: everything the chain can do (R128). -/
theorem State.triggerStep_cases (s : State) (c : Bool) :
    (s.st = .frozen ∧ s.triggerStep c = s.markFreezeLost.setTrigger .idle) ∨
    (s.st = .armed s.head ∧ s.triggerStep c = s.setTrigger .frozen) ∨
    (s.st = .idle ∧ s.hist = 0#8 ∧ c = true ∧
      s.triggerStep c = s.setTrigger (.armed (stopIndexFor s.head))) ∨
    (s.st ≠ .frozen ∧ s.st ≠ .armed s.head ∧ ¬(s.st = .idle ∧ s.hist = 0#8 ∧ c = true) ∧
      s.triggerStep c = s) := by
  by_cases h1 : s.st = .frozen
  · exact .inl ⟨h1, by simp [State.triggerStep, h1]⟩
  · by_cases h2 : s.st = .armed s.head
    · exact .inr (.inl ⟨h2, by simp [State.triggerStep, h2]⟩)
    · by_cases h3 : qualify s.hist s.st c = true
      · have h4 := (qualify_iff _ _ _).1 h3
        exact .inr (.inr (.inl ⟨h4.1, h4.2.1, h4.2.2, by simp [State.triggerStep, h1, h2, h3]⟩))
      · exact .inr (.inr (.inr ⟨h1, h2, fun h => h3 ((qualify_iff _ _ _).2 h),
          by simp [State.triggerStep, h1, h2, h3]⟩))

/-- What the chain leaves alone. -/
theorem State.triggerStep_frame (s : State) (c : Bool) :
    ∃ st fl, s.triggerStep c = { s with st := st, freezeLost := fl } := by
  obtain ⟨_, h⟩ | ⟨_, h⟩ | ⟨_, _, _, h⟩ | ⟨_, _, _, h⟩ := s.triggerStep_cases c <;>
    exact ⟨_, _, h⟩

@[simp] theorem State.tick_buf (s : State) (c : Bool) (v : Byte) :
    (s.tick c v).buf = Memory.write s.buf s.head.toNat v := by
  obtain ⟨_, _, h⟩ := ((s.spendLate.storeSample v).triggerStep_frame c)
  simp [State.tick, h]

@[simp] theorem State.tick_head (s : State) (c : Bool) (v : Byte) :
    (s.tick c v).head = nextIndex s.head := by
  obtain ⟨_, _, h⟩ := ((s.spendLate.storeSample v).triggerStep_frame c)
  simp [State.tick, h]

@[simp] theorem State.tick_hist (s : State) (c : Bool) (v : Byte) :
    (s.tick c v).hist = histShift s.hist c := by
  obtain ⟨_, _, h⟩ := ((s.spendLate.storeSample v).triggerStep_frame c)
  simp [State.tick, h]

@[simp] theorem State.tick_late (s : State) (c : Bool) (v : Byte) :
    (s.tick c v).late = if s.clkEn then s.late else s.late - 1 := by
  obtain ⟨_, _, h⟩ := ((s.spendLate.storeSample v).triggerStep_frame c)
  simp [State.tick, h]

/-- The trigger state after a tick is that after steps 2 to 4. -/
theorem State.tick_st (s : State) (c : Bool) (v : Byte) : (s.tick c v).st = (s.triggerStep c).st := by
  by_cases h1 : s.st = .frozen
  · simp [State.tick, State.triggerStep, h1]
  · by_cases h2 : s.st = .armed s.head
    · simp [State.tick, State.triggerStep, h2]
    · by_cases h3 : qualify s.hist s.st c = true <;>
        simp [State.tick, State.triggerStep, h1, h2, h3]

/-- Likewise the mark of a lost freeze. -/
theorem State.tick_freezeLost (s : State) (c : Bool) (v : Byte) :
    (s.tick c v).freezeLost = (s.triggerStep c).freezeLost := by
  by_cases h1 : s.st = .frozen
  · simp [State.tick, State.triggerStep, h1]
  · by_cases h2 : s.st = .armed s.head
    · simp [State.tick, State.triggerStep, h2]
    · by_cases h3 : qualify s.hist s.st c = true <;>
        simp [State.tick, State.triggerStep, h1, h2, h3]

/-- A tick touches nothing of the consumer (R204). -/
theorem State.tick_sameConsumer (s : State) (c : Bool) (v : Byte) : SameConsumer s (s.tick c v) := by
  obtain ⟨_, _, h⟩ := ((s.spendLate.storeSample v).triggerStep_frame c)
  constructor <;> simp [State.tick, h]

/-- TICK answers a next state exactly when it is enabled (R121). -/
theorem execTick_enabled {s : State} (c : Bool) (v : Byte) (h : s.tickEnabled = true) :
    exec (.tick c v) s = .next (s.tick c v) := by
  simp [exec, execTick, h]

theorem execTick_stuck {s : State} (c : Bool) (v : Byte) (h : s.tickEnabled = false) :
    exec (.tick c v) s = .fault .tickNotEnabled := by
  simp [exec, execTick, h]

theorem State.tickEnabled_iff (s : State) : s.tickEnabled = true ↔ s.clkEn = true ∨ 0 < s.late := by
  simp [State.tickEnabled]

theorem State.tickEnabled_of_clkEn {s : State} (h : s.clkEn = true) : s.tickEnabled = true := by
  simp [State.tickEnabled, h]

/-- While the clock runs, a tick leaves it running. -/
theorem State.tick_clkEn (s : State) (c : Bool) (v : Byte) : (s.tick c v).clkEn = s.clkEn :=
  (s.tick_sameConsumer c v).clkEn

/-- Ticks with the clock running: one, then the rest. -/
theorem runTicks_cons {s : State} (c : Bool) (v : Byte) (ts : List (Bool × Byte))
    (h : s.clkEn = true) : runTicks ((c, v) :: ts) s = runTicks ts (s.tick c v) := by
  simp [runTicks, execTick_enabled c v (State.tickEnabled_of_clkEn h)]

end Sys2Proof.Machine
end

