-- ==== Sys2Proof/Laws/Exec.lean ====
section
/-! SUPPORT. Inversion, said once: everything an instruction, a turn and a step can do when they answer a
next state. -/
namespace Sys2Proof.Machine

/-- What a read leaves of the state `s`: the marks a read sets and a free value used, nothing else (R56). -/
inductive ReadLeaves (s : State) : State → Prop where
  | same : ReadLeaves s s
  | drawn : ReadLeaves s s.nextDraw
  | observed (b : Bool) : ReadLeaves s (s.setObsFrozen b)
  | marked : ReadLeaves s s.markUnsync
  | markedDrawn : ReadLeaves s s.markUnsync.nextDraw

/-- The interface words that only read (R56). -/
def Instr.isRead : Instr → Bool
  | .rdStatus | .rdPhys _ | .rdChron _ | .rdHead | .rdStop | .rdHist => true
  | .tick _ _ | .clkStop | .clkStart | .cmdR | .cmdT _ _ _ | .cmdIgn _ => false

/-- Everything an instruction can do. -/
inductive ExecCase : Instr → State → State → Prop where
  | tick (c : Bool) (v : Byte) {s : State} (h : s.tickEnabled = true) :
      ExecCase (.tick c v) s (s.tick c v)
  | clkStop {s : State} : ExecCase .clkStop s s.stopClock
  | clkStart {s : State} : ExecCase .clkStart s s.startClock
  | read {i : Instr} {s : State} (hi : Instr.isRead i = true) {w : Nat} (r : BitVec w × State)
      (hr : ReadLeaves s r.2) : ExecCase i s (State.logResult r)
  | cmdRStart {s : State} (hc : s.cons = .waitCmd) : ExecCase .cmdR s (s.setCons .rPoll)
  | cmdRPoll {s : State} (hc : s.cons = .rPoll) : ExecCase .cmdR s (pollStep s)
  | cmdRStop {s : State} (hc : s.cons = .rStop) : ExecCase .cmdR s (stopStep s)
  | cmdRSend {s : State} (j : Index) (hc : s.cons = .rSend j) : ExecCase .cmdR s (sendStep j s)
  | cmdRRestart {s : State} (hc : s.cons = .rStart) : ExecCase .cmdR s (restartStep s)
  | cmdTStart (d0 d1 d2 : Byte) {s : State} (hc : s.cons = .waitCmd) :
      ExecCase (.cmdT d0 d1 d2) s (s.setCons .tDig0)
  | cmdTDigit0 (d0 d1 d2 : Byte) {s : State} (hc : s.cons = .tDig0) :
      ExecCase (.cmdT d0 d1 d2) s (s.setCons (.tDig1 d0))
  | cmdTDigit1 (d0 d1 d2 : Byte) {s : State} (a0 : Byte) (hc : s.cons = .tDig1 a0) :
      ExecCase (.cmdT d0 d1 d2) s (s.setCons (.tDig2 a0 d1))
  | cmdTDigit2 (d0 d1 d2 : Byte) {s : State} (a0 a1 : Byte) (hc : s.cons = .tDig2 a0 a1) :
      ExecCase (.cmdT d0 d1 d2) s (levelStep a0 a1 d2 s)
  | cmdIgn (b : Byte) {s : State} (hc : s.cons = .waitCmd) :
      ExecCase (.cmdIgn b) s (s.setCons .waitCmd)

theorem State.memRead_leaves (s : State) (a : Index) : ReadLeaves s (s.readPhys a).2 := by
  rcases s.readPhys_cases a with h | h <;> rw [h]
  · exact .marked
  · exact .markedDrawn

theorem State.readStop_leaves (s : State) : ReadLeaves s s.readStop.2 := by
  rcases s.readStop_cases with h | h <;> rw [h]
  · exact .same
  · exact .drawn

/-- Inversion of `exec`. -/
theorem exec_cases {i : Instr} {s t : State} (h : exec i s = .next t) : ExecCase i s t := by
  cases i with
  | tick c v =>
    by_cases he : s.tickEnabled = true
    · rw [execTick_enabled c v he] at h
      cases h
      exact .tick c v he
    · rw [execTick_stuck c v (by simpa using he)] at h
      cases h
  | clkStop => cases h; exact .clkStop
  | clkStart => cases h; exact .clkStart
  | rdStatus => cases h; exact .read rfl s.readStatus (.observed _)
  | rdPhys a => cases h; exact .read rfl (s.readPhys a) (s.memRead_leaves a)
  | rdChron j => cases h; exact .read rfl (s.readChron j) (s.memRead_leaves _)
  | rdHead => cases h; exact .read rfl (s.head, s) .same
  | rdStop => cases h; exact .read rfl s.readStop s.readStop_leaves
  | rdHist => cases h; exact .read rfl (s.hist, s) .same
  | cmdR =>
    cases hc : s.cons <;> simp only [exec, execCmdR, hc] at h <;> cases h
    · exact .cmdRStart hc
    · exact .cmdRPoll hc
    · exact .cmdRStop hc
    · exact .cmdRSend _ hc
    · exact .cmdRRestart hc
  | cmdT d0 d1 d2 =>
    cases hc : s.cons <;> simp only [exec, execCmdT, hc] at h <;> cases h
    · exact .cmdTStart d0 d1 d2 hc
    · exact .cmdTDigit0 d0 d1 d2 hc
    · exact .cmdTDigit1 d0 d1 d2 _ hc
    · exact .cmdTDigit2 d0 d1 d2 _ _ hc
  | cmdIgn b =>
    cases hc : s.cons <;> simp only [exec, execCmdIgn, hc] at h <;> cases h
    exact .cmdIgn b hc

/-- A send waits for the transport, or sends one byte after a read (R176). -/
theorem sendStep_cases (j : Index) (s : State) :
    (s.txReady = false ∧ sendStep j s = s) ∨
    (s.txReady = true ∧ ∃ r, (r = s.markUnsync ∨ r = s.markUnsync.nextDraw) ∧
      sendStep j s = (r.send (s.readChron j).1).setCons (afterSend j)) := by
  by_cases h : s.txReady = true
  · exact .inr ⟨h, _, s.readChron_cases j, by simp [sendStep, h]⟩
  · exact .inl ⟨by simpa using h, by simp [sendStep, h]⟩

/-- The level step writes one byte to `duty` and ends the command (R180). -/
theorem levelStep_cases (a0 a1 b : Byte) (s : State) :
    ∃ v r, (r = s ∨ r = s.nextDraw) ∧ levelStep a0 a1 b s = (r.setDuty v).setCons .waitCmd :=
  ⟨_, _, s.parseLevel_cases a0 a1 b, rfl⟩

/-- Everything a turn can do (R58, R206). -/
inductive TurnCase : Turn → State → State → Prop where
  | tick (c : Bool) (v : Byte) {s : State} (h : s.tickEnabled = true) :
      TurnCase (.tick c v) s (s.tick c v)
  | noTick (c : Bool) (v : Byte) {s : State} (h : s.tickEnabled = false) : TurnCase (.tick c v) s s
  | hostSend (b : Byte) {s : State} : TurnCase (.hostSend b) s (s.hostSend b)
  | hostAccept {s : State} : TurnCase .hostAccept s s.hostAccept
  | held {s : State} (hr : s.rx = [])
      (hc : s.cons ≠ .rPoll ∧ s.cons ≠ .rStop ∧ (∀ j, s.cons ≠ .rSend j) ∧ s.cons ≠ .rStart) :
      TurnCase .consumer s s
  | command {s : State} (b : Byte) (bs : List Byte) (hr : s.rx = b :: bs) (hc : s.cons = .waitCmd) :
      TurnCase .consumer s ((s.setRx bs).setCons
        (if b = 0x72#8 then .rPoll else if b = 0x74#8 then .tDig0 else .waitCmd))
  | digit0 {s : State} (b : Byte) (bs : List Byte) (hr : s.rx = b :: bs) (hc : s.cons = .tDig0) :
      TurnCase .consumer s ((s.setRx bs).setCons (.tDig1 b))
  | digit1 {s : State} (b : Byte) (bs : List Byte) (a0 : Byte) (hr : s.rx = b :: bs)
      (hc : s.cons = .tDig1 a0) : TurnCase .consumer s ((s.setRx bs).setCons (.tDig2 a0 b))
  | digit2 {s : State} (b : Byte) (bs : List Byte) (a0 a1 : Byte) (hr : s.rx = b :: bs)
      (hc : s.cons = .tDig2 a0 a1) : TurnCase .consumer s (levelStep a0 a1 b (s.setRx bs))
  | poll {s : State} (hc : s.cons = .rPoll) : TurnCase .consumer s (pollStep s)
  | stop {s : State} (hc : s.cons = .rStop) : TurnCase .consumer s (stopStep s)
  | send {s : State} (j : Index) (hc : s.cons = .rSend j) : TurnCase .consumer s (sendStep j s)
  | restart {s : State} (hc : s.cons = .rStart) : TurnCase .consumer s (restartStep s)

/-- A consumer's turn is one step of the command its position is in (R170). -/
theorem turnStep_consumer (s : State) : ∃ t, turnStep .consumer s = .next t ∧ TurnCase .consumer s t := by
  cases hc : s.cons with
  | waitCmd =>
    cases hr : s.rx with
    | nil => exact ⟨s, by simp [turnStep, fetchTurn, fetchConsumer, hc, hr, runFetched], .held hr (by simp [hc])⟩
    | cons b bs =>
      refine ⟨_, ?_, .command b bs hr hc⟩
      by_cases h1 : b = 0x72#8
      · simp [turnStep, fetchTurn, fetchConsumer, hc, hr, runFetched, commandOf, Config.cmdDump, h1,
          exec, execCmdR]
      · by_cases h2 : b = 0x74#8
        · simp [turnStep, fetchTurn, fetchConsumer, hc, hr, runFetched, commandOf, Config.cmdDump,
            Config.cmdTrig, h2, cmdTOf, exec, execCmdT]
        · simp [turnStep, fetchTurn, fetchConsumer, hc, hr, runFetched, commandOf, Config.cmdDump,
            Config.cmdTrig, h1, h2, exec, execCmdIgn]
  | tDig0 =>
    cases hr : s.rx with
    | nil => exact ⟨s, by simp [turnStep, fetchTurn, fetchConsumer, hc, hr, runFetched], .held hr (by simp [hc])⟩
    | cons b bs =>
      exact ⟨_, by simp [turnStep, fetchTurn, fetchConsumer, hc, hr, runFetched, cmdTOf, exec, execCmdT],
        .digit0 b bs hr hc⟩
  | tDig1 a0 =>
    cases hr : s.rx with
    | nil => exact ⟨s, by simp [turnStep, fetchTurn, fetchConsumer, hc, hr, runFetched], .held hr (by simp [hc])⟩
    | cons b bs =>
      exact ⟨_, by simp [turnStep, fetchTurn, fetchConsumer, hc, hr, runFetched, cmdTOf, exec, execCmdT],
        .digit1 b bs a0 hr hc⟩
  | tDig2 a0 a1 =>
    cases hr : s.rx with
    | nil => exact ⟨s, by simp [turnStep, fetchTurn, fetchConsumer, hc, hr, runFetched], .held hr (by simp [hc])⟩
    | cons b bs =>
      exact ⟨_, by simp [turnStep, fetchTurn, fetchConsumer, hc, hr, runFetched, cmdTOf, exec, execCmdT],
        .digit2 b bs a0 a1 hr hc⟩
  | rPoll => exact ⟨_, by simp [turnStep, fetchTurn, fetchConsumer, hc, runFetched, exec, execCmdR], .poll hc⟩
  | rStop => exact ⟨_, by simp [turnStep, fetchTurn, fetchConsumer, hc, runFetched, exec, execCmdR], .stop hc⟩
  | rSend j => exact ⟨_, by simp [turnStep, fetchTurn, fetchConsumer, hc, runFetched, exec, execCmdR], .send j hc⟩
  | rStart => exact ⟨_, by simp [turnStep, fetchTurn, fetchConsumer, hc, runFetched, exec, execCmdR], .restart hc⟩

/-- A turn always answers a next state (R200), one of the cases. -/
theorem turnStep_next (x : Turn) (s : State) : ∃ t, turnStep x s = .next t ∧ TurnCase x s t := by
  cases x with
  | tick c v =>
    by_cases h : s.tickEnabled = true
    · exact ⟨_, by simp [turnStep, fetchTurn, h, runFetched, execTick_enabled c v h], .tick c v h⟩
    · have h' : s.tickEnabled = false := by simpa using h
      exact ⟨_, by simp [turnStep, fetchTurn, h', runFetched], .noTick c v h'⟩
  | consumer => exact turnStep_consumer s
  | hostSend b => exact ⟨_, rfl, .hostSend b⟩
  | hostAccept => exact ⟨_, rfl, .hostAccept⟩

/-- Inversion of a turn. -/
theorem turnStep_cases {x : Turn} {s t : State} (h : turnStep x s = .next t) : TurnCase x s t := by
  obtain ⟨t', h1, h2⟩ := turnStep_next x s
  rw [h1] at h
  cases h
  exact h2

/-- Everything a step can do. -/
inductive StepCase (s : State) : State → Prop where
  | refusedWord (w : Word) (r : Reject) (hf : s.form = .direct) (hr : s.refused = false)
      (hw : s.prog[s.dpc]? = some w) (hd : decodeOp16 w = .error r) : StepCase s s.markRefused
  | word (w : Word) (i : Instr) (t : State) (hf : s.form = .direct) (hr : s.refused = false)
      (hw : s.prog[s.dpc]? = some w) (hd : decodeOp16 w = .ok i)
      (ht : exec i s.advanceDpc = .next t) : StepCase s t
  | turn (x : Turn) (ts : List Turn) (t : State) (hf : s.form = .reference)
      (hs : s.sched = x :: ts) (ht : turnStep x (s.setSched ts) = .next t) : StepCase s t
  | freeTurn (x : Turn) (t : State) (hf : s.form = .reference) (hs : s.sched = [])
      (ht : turnStep x s.nextDraw = .next t) : StepCase s t

/-- Under the reference consumer a step is the turn it takes (R206). -/
theorem step_reference {s : State} (hf : s.form = .reference) :
    step s = turnStep s.takeTurn.1 s.takeTurn.2 := by
  simp [step, fetch, hf, turnStep]

/-- The direct consumer's word (R158). -/
theorem step_word {s : State} {w : Word} {i : Instr} (hf : s.form = .direct) (hr : s.refused = false)
    (hw : s.prog[s.dpc]? = some w) (hd : decodeOp16 w = .ok i) : step s = exec i s.advanceDpc := by
  simp [step, fetch, hf, fetchDirect, hr, hw, hd, runFetched]

/-- The direct consumer's reserved word (R78). -/
theorem step_reservedWord {s : State} {w : Word} {r : Reject} (hf : s.form = .direct)
    (hr : s.refused = false) (hw : s.prog[s.dpc]? = some w) (hd : decodeOp16 w = .error r) :
    step s = .next s.markRefused := by
  simp [step, fetch, hf, fetchDirect, hr, hw, hd, runFetched]

/-- Inversion of `step`. -/
theorem step_cases {s t : State} (h : step s = .next t) : StepCase s t := by
  cases hf : s.form with
  | reference =>
    rw [step_reference hf] at h
    obtain ⟨x, ts, hs, he⟩ | ⟨hs, he⟩ := s.takeTurn_cases <;> rw [he] at h
    · exact .turn x ts t hf hs h
    · exact .freeTurn _ t hf hs h
  | direct =>
    cases hr : s.refused with
    | true => simp [step, fetch, hf, fetchDirect, hr, runFetched] at h
    | false =>
      cases hw : s.prog[s.dpc]? with
      | none => simp [step, fetch, hf, fetchDirect, hr, hw, runFetched] at h
      | some w =>
        cases hd : decodeOp16 w with
        | error r =>
          rw [step_reservedWord hf hr hw hd] at h
          cases h
          exact .refusedWord w r hf hr hw hd
        | ok i =>
          rw [step_word hf hr hw hd] at h
          exact .word w i t hf hr hw hd h

end Sys2Proof.Machine
end

