-- ==== Sys2Proof/Laws/PerInstr.lean ====
section
/-! SUPPORT. Statements for all instructions, one lemma per constructor. -/
namespace Sys2Proof.Laws

/-- An instruction's encoding lies in the space of its format and has the length R80 gives it. -/
def EncodeLength.Statement (i : Instr) : Prop :=
  (encode i).byteLength = i.byteLength ∧ (i.format = .op16 ↔ ∃ w, encode i = .op16 w)

theorem EncodeLength.tick (c : Bool) (s : Byte) : EncodeLength.Statement (.tick c s) := by
  simp [EncodeLength.Statement, encode, Code.byteLength, Instr.byteLength, Instr.format]

theorem EncodeLength.clkStop : EncodeLength.Statement .clkStop := by
  simp [EncodeLength.Statement, encode, Code.byteLength, Instr.byteLength, Instr.format]

theorem EncodeLength.clkStart : EncodeLength.Statement .clkStart := by
  simp [EncodeLength.Statement, encode, Code.byteLength, Instr.byteLength, Instr.format]

theorem EncodeLength.rdStatus : EncodeLength.Statement .rdStatus := by
  simp [EncodeLength.Statement, encode, Code.byteLength, Instr.byteLength, Instr.format]

theorem EncodeLength.rdPhys (a : Index) : EncodeLength.Statement (.rdPhys a) := by
  simp [EncodeLength.Statement, encode, Code.byteLength, Instr.byteLength, Instr.format]

theorem EncodeLength.rdChron (j : Index) : EncodeLength.Statement (.rdChron j) := by
  simp [EncodeLength.Statement, encode, Code.byteLength, Instr.byteLength, Instr.format]

theorem EncodeLength.rdHead : EncodeLength.Statement .rdHead := by
  simp [EncodeLength.Statement, encode, Code.byteLength, Instr.byteLength, Instr.format]

theorem EncodeLength.rdStop : EncodeLength.Statement .rdStop := by
  simp [EncodeLength.Statement, encode, Code.byteLength, Instr.byteLength, Instr.format]

theorem EncodeLength.rdHist : EncodeLength.Statement .rdHist := by
  simp [EncodeLength.Statement, encode, Code.byteLength, Instr.byteLength, Instr.format]

theorem EncodeLength.cmdR : EncodeLength.Statement .cmdR := by
  simp [EncodeLength.Statement, encode, Code.byteLength, Instr.byteLength, Instr.format]

theorem EncodeLength.cmdT (d0 d1 d2 : Byte) : EncodeLength.Statement (.cmdT d0 d1 d2) := by
  simp [EncodeLength.Statement, encode, Code.byteLength, Instr.byteLength, Instr.format]

theorem EncodeLength.cmdIgn (b : Byte) : EncodeLength.Statement (.cmdIgn b) := by
  simp [EncodeLength.Statement, encode, Code.byteLength, Instr.byteLength, Instr.format]

end Sys2Proof.Laws
end

