-- ==== Sys2Proof/Tests/Slice0.lean ====
section
/-! SUPPORT. Tests with expected results from the spec's vectors (95_test_vectors.md), the WellFormed smoke
test, and for every statement with hypotheses a witness that they can be met together. -/
namespace Sys2Proof.Tests
open Sys2Proof.Machine

/-! ## Helpers -/

/-- Reset with `HIST_RESET = 0xFF` (95_test_vectors.md's premise) and `DUTY_RESET = 0`. -/
def base : State := State.resetWith 0xFF#8 0x00#8

/-- The pre-state of a TICK vector (section 2.2). -/
def pre (head : Index) (hist : Byte) (st : Trigger) : State :=
  { base with head := head, hist := hist, st := st }

/-- The state a step answers, if it answers one. -/
def nextOf (o : Host.Outcome State Fault Refusal) : Option State :=
  match o with
  | .next s => some s
  | .fault _ => none
  | .refused _ => none

/-- What a TICK vector lists: the cell written, `head`, `hist`, `st`. -/
def tickResult (a : Index) (o : Host.Outcome State Fault Refusal) :
    Option (Option Byte × Index × Byte × Trigger) :=
  (nextOf o).map fun t => (t.cell a, t.head, t.hist, t.st)

/-- The last entry of the result log. -/
def lastResult (o : Host.Outcome State Fault Refusal) : Option Word :=
  (nextOf o).bind fun t => t.rlog.getLast?

/-! ## WellFormed: an ill-formed term for each check (R71) -/

theorem test_wellFormed_refuses_ignored_r : (Instr.cmdIgn 0x72#8).wellFormed = false := by decide
theorem test_wellFormed_refuses_ignored_t : (Instr.cmdIgn 0x74#8).wellFormed = false := by decide
theorem test_wellFormed_takes_ignored_upper_r : (Instr.cmdIgn 0x52#8).wellFormed = true := by decide

/-! ## Decoding: one word for each row, written out from 30_encoding.md -/

theorem test_decode_tick : decodeOp16 0b0000000110000000#16 = .ok (.tick true 0x80#8) := by decide
theorem test_decode_clkStop : decodeOp16 0b0001000000000000#16 = .ok .clkStop := by decide
theorem test_decode_clkStart : decodeOp16 0b0010000000000000#16 = .ok .clkStart := by decide
theorem test_decode_rdStatus : decodeOp16 0b0011000000000000#16 = .ok .rdStatus := by decide
theorem test_decode_rdPhys : decodeOp16 0b0100000000000101#16 = .ok (.rdPhys 5#10) := by decide
theorem test_decode_rdChron : decodeOp16 0b0101001111111111#16 = .ok (.rdChron 1023#10) := by decide
theorem test_decode_rdHead : decodeOp16 0b0110000000000000#16 = .ok .rdHead := by decide
theorem test_decode_rdStop : decodeOp16 0b0111000000000000#16 = .ok .rdStop := by decide
theorem test_decode_rdHist : decodeOp16 0b1000000000000000#16 = .ok .rdHist := by decide
theorem test_decode_cmdR : decodeCmd8 [0x72#8, 0x41#8] = .ok (.cmdR, [0x41#8]) := by decide
theorem test_decode_cmdT :
    decodeCmd8 [0x74#8, 0x31#8, 0x32#8, 0x38#8] = .ok (.cmdT 0x31#8 0x32#8 0x38#8, []) := by decide
theorem test_decode_cmdIgn : decodeCmd8 [0x52#8] = .ok (.cmdIgn 0x52#8, []) := by decide

/-- B9, B10, K23, K24: each reservation of R78. -/
theorem test_decode_reserved :
    decodeOp16 0x0E00#16 = .error .reservedTickBits ∧ decodeOp16 0x0200#16 = .error .reservedTickBits ∧
    decodeOp16 0x9000#16 = .error .reservedOp ∧ decodeOp16 0xFFFF#16 = .error .reservedOp ∧
    decodeOp16 0x1001#16 = .error .reservedOperand ∧
    decodeOp16 0x4400#16 = .error .reservedIndexBits := by decide

/-- A `'t'` whose operand bytes have not all come. -/
theorem test_decode_missing_operands :
    decodeCmd8 [0x74#8, 0x31#8, 0x32#8] = .error .operandBytesMissing ∧
    decodeCmd8 [] = .error .noCommandByte ∧
    decode (.cmd8 [0x72#8, 0x72#8]) = .error .trailingBytes := by decide

/-- The table's numbering: the second byte is bits 15..8. -/
theorem test_decodeTableWord :
    decodeTableWord 16 0x0180 = some (.tick true 0x80#8) ∧ decodeTableWord 8 0x72 = some .cmdR ∧
    decodeTableWord 8 0x74 = some (.cmdT 0#8 0#8 0#8) ∧
    decodeTableWord 32 0x38323174 = some (.cmdT 0x31#8 0x32#8 0x38#8) ∧
    decodeTableWord 8 0x00 = some (.cmdIgn 0#8) := by decide

/-! ## The qualifier (section 2.1) -/

/-- Q1 to Q7. -/
theorem test_qualify :
    qualify 0x00#8 .idle true = true ∧ qualify 0x00#8 .idle false = false ∧
    qualify 0x01#8 .idle true = false ∧ qualify 0x80#8 .idle true = false ∧
    qualify 0x00#8 (.armed 3#10) true = false ∧ qualify 0x00#8 .frozen true = false ∧
    qualify 0xFF#8 .idle true = false := by decide

/-- H2, H3, H4, H5. -/
theorem test_histShift :
    histShift 0xFF#8 true = 0xFF#8 ∧ histShift 0x80#8 false = 0x00#8 ∧
    histShift 0x81#8 false = 0x02#8 ∧ histShift 0x55#8 true = 0xAB#8 := by decide

/-! ## TICK (section 2.2) -/

/-- T7: head wraps, the stop index lies below head. -/
theorem test_tick_arms_at_top :
    tickResult 1023#10 (exec (.tick true 0xFF#8) (pre 1023#10 0x00#8 .idle)) =
      some (some 0xFF#8, 0#10, 0x01#8, .armed 511#10) := by decide

/-- T10: freeze at 0, and no qualifying although `hist = 0` and `c = 1`. -/
theorem test_tick_freezes_at_zero :
    tickResult 0#10 (exec (.tick true 0x00#8) (pre 0#10 0x00#8 (.armed 0#10))) =
      some (some 0x00#8, 1#10, 0x01#8, .frozen) := by decide

/-- T12: the lost race. -/
theorem test_tick_lost_race :
    (nextOf (exec (.tick true 0x11#8) { pre 523#10 0xFF#8 .frozen with obsFrozen := true })).map
      (fun t => (t.cell 523#10, t.head, t.st, t.freezeLost)) =
      some (some 0x11#8, 524#10, .idle, true) := by decide

/-- T17: TICK is not enabled. -/
theorem test_tick_stuck :
    nextOf (exec (.tick true 0x00#8) { pre 7#10 0x00#8 .idle with clkEn := false }) = none := by decide

/-! ## Consumer operations (section 2.3) -/

/-- K6. -/
theorem test_clkStop :
    (nextOf (exec .clkStop { base with obsFrozen := true })).map (fun t => (t.clkEn, t.obsFrozen)) =
      some (false, false) := by decide

/-- K8. -/
theorem test_clkStart :
    (nextOf (exec .clkStart { pre 0#10 0#8 .frozen with clkEn := false })).map
      (fun t => (t.clkEn, t.st)) = some (true, .frozen) := by decide

/-- K2, K3. -/
theorem test_rdStatus :
    lastResult (exec .rdStatus (pre 0#10 0#8 (.armed 522#10))) = some 0x06#16 ∧
    lastResult (exec .rdStatus (pre 0#10 0#8 .frozen)) = some 0x05#16 := by decide

/-- K4, K5. -/
theorem test_rdStatus_stopped :
    lastResult (exec .rdStatus { pre 0#10 0#8 .frozen with clkEn := false }) = some 0x01#16 ∧
    lastResult (exec .rdStatus { base with clkEn := false }) = some 0x00#16 := by decide

/-- K11. -/
theorem test_rdPhys :
    (nextOf (exec (.rdPhys 5#10) { base with buf := [(5, 0x42#8)] })).map
      (fun t => (t.rlog, t.unsyncRead)) = some ([0x42#16], true) := by decide

/-- K12: the read of an `Unwritten` cell goes on. -/
theorem test_rdPhys_unwritten :
    (nextOf (exec (.rdPhys 0#10) base)).map (fun t => t.rlog.length) = some 1 := by decide

/-- K14 and K15. -/
theorem test_rdChron :
    lastResult (exec (.rdChron 24#10) { pre 1000#10 0#8 .idle with buf := [(0, 0x77#8)] }) =
      some 0x77#16 ∧
    lastResult (exec (.rdChron 1023#10) { pre 523#10 0#8 .idle with buf := [(522, 0x5A#8)] }) =
      some 0x5A#16 := by decide

/-- K18. -/
theorem test_rdHead : lastResult (exec .rdHead (pre 76#10 0#8 .idle)) = some 76#16 := by decide

/-- K19. -/
theorem test_rdStop :
    lastResult (exec .rdStop (pre 0#10 0#8 (.armed 522#10))) = some 522#16 := by decide

/-- K21. -/
theorem test_rdHist : lastResult (exec .rdHist (pre 0#10 0x01#8 .idle)) = some 0x01#16 := by decide

/-! ## The reference consumer (section 2.4) -/

/-- The reference consumer's turn, with host bytes waiting. -/
def consumerTurn (c : Cons) (bs : List Byte) : State :=
  { base with cons := c, rx := bs, sched := [.consumer] }

/-- X1 to X5. -/
theorem test_waitCmd :
    (nextOf (step (consumerTurn .waitCmd [0x72#8]))).map State.cons = some .rPoll ∧
    (nextOf (step (consumerTurn .waitCmd [0x74#8]))).map State.cons = some .tDig0 ∧
    (nextOf (step (consumerTurn .waitCmd [0x52#8]))).map State.cons = some .waitCmd ∧
    (nextOf (step (consumerTurn .waitCmd [0x00#8]))).map State.cons = some .waitCmd ∧
    (nextOf (step (consumerTurn .waitCmd [0xFF#8]))).map State.cons = some .waitCmd := by decide

/-- X6, X7. -/
theorem test_poll :
    (nextOf (exec .cmdR { pre 0#10 0#8 (.armed 5#10) with cons := .rPoll })).map State.cons =
      some .rPoll ∧
    (nextOf (exec .cmdR { pre 0#10 0#8 .frozen with cons := .rPoll })).map State.cons =
      some .rStop := by decide

/-- X9: `head = 523`, `RSend(500)` sends cell 1023. -/
theorem test_send :
    (nextOf (exec .cmdR { pre 523#10 0#8 .frozen with
      cons := .rSend 500#10, clkEn := false, txReady := true, buf := [(1023, 0x99#8)] })).map
      (fun t => (t.tx, t.cons, t.unsyncRead)) = some ([0x99#8], .rSend 501#10, false) := by decide

/-- V2, V4. -/
theorem test_level :
    (nextOf (exec (.cmdT 0#8 0#8 0x37#8) { base with cons := .tDig2 0x30#8 0x30#8 })).map State.duty =
      some 7#8 ∧
    (nextOf (exec (.cmdT 0#8 0#8 0x35#8) { base with cons := .tDig2 0x32#8 0x35#8 })).map State.duty =
      some 255#8 := by decide

/-- V5, V7: no stated value, and no fault. -/
theorem test_level_open :
    levelValue 0x32#8 0x35#8 0x36#8 = none ∧ levelValue 0x31#8 0x61#8 0x33#8 = none ∧
    (nextOf (exec (.cmdT 0#8 0#8 0x36#8) { base with cons := .tDig2 0x32#8 0x35#8 })).map State.cons =
      some .waitCmd := by decide

/-- X3: an ignored byte changes nothing. -/
theorem test_ignored : nextOf (exec (.cmdIgn 0x52#8) base) = some base := by decide

/-! ## The step and the trace form -/

/-- T16: a reserved TICK word sets `refused` and does nothing else. -/
theorem test_reserved_step :
    nextOf (step (base.withProgram [0x0200#16])) =
      some { base.withProgram [0x0200#16] with refused := true } := by decide

/-- A placed word is the next thing that runs. -/
theorem test_withFetchWord :
    lastResult (step (base.withFetchWord 16 0x3000)) = some 0x04#16 ∧
    (nextOf (step (base.withFetchWord 8 0x72))).map State.cons = some .rPoll := by decide

/-- B1, B4 in the written form. -/
theorem test_parseLine :
    (parseLine ['t', 'i', 'c', 'k', ' ', '0', 'x', '8', '0', ',', ' ', '1', ' ', ';', 'x']).map
      (fun l => assemble [l]) = some [0x0180#16] ∧
    (parseLine ['r', 'd', 'c', ' ', '5', '1', '1']).map (fun l => assemble [l]) = some [0x51FF#16] ∧
    (parseLine ['h', 'o', 's', 't', ' ', '0', 'x', '4', '1']).map (fun l => hostBytes [l]) =
      some [0x41#8] ∧
    parseLine ['r', 'd', 'c', ' ', '1', '0', '2', '4'] = none := by decide

/-- A quoted string (R81's `host "t128"`), and one whose quotation mark is not closed. -/
theorem test_parseLine_string :
    (parseLine (['h', 'o', 's', 't', ' ', quoteChar, 't', '1', '2', '8', quoteChar])).map
      (fun l => hostBytes [l]) = some [0x74#8, 0x31#8, 0x32#8, 0x38#8] ∧
    parseLine ['h', 'o', 's', 't', ' ', quoteChar, 't', '1', '2', '8'] = none := by decide

/-- The layout of log entry 19: separators before `host`, behind it and behind the string. -/
theorem test_parseLine_host_layout :
    (parseLine (['\t', ' ', 'h', 'o', 's', 't', '\t', quoteChar, 'r', quoteChar, '\t', ';', 'x'])).map
      (fun l => hostBytes [l]) = some [0x72#8] ∧
    parseLine ['h', 'o', 's', 't', quoteChar, 'r', quoteChar] = none := by decide

/-! ## Witnesses: the hypotheses of each statement can be met together -/

theorem witness_DecodeOfEncode : (Instr.cmdIgn 0xFF#8).wellFormed = true := by decide

theorem witness_EncodeOfDecode :
    decode (.op16 0x53FF#16) = .ok (.rdChron 1023#10) ∧
    decode (.cmd8 [0x74#8, 0x72#8, 0x74#8, 0xFF#8]) = .ok (.cmdT 0x72#8 0x74#8 0xFF#8) := by decide

/-- Each reservation at its boundary, in a state that fetches the word. -/
theorem witness_ReservedWordsAreRefused :
    (∀ w ∈ [0x9000#16, 0xFFFF#16, 0x0200#16, 0x0FFF#16, 0x1001#16, 0x8FFF#16, 0x4400#16, 0x5FFF#16],
      ∃ r, decodeOp16 w = .error r) ∧
    (base.withProgram [0x9000#16]).form = .direct ∧ (base.withProgram [0x9000#16]).refused = false ∧
    (base.withProgram [0x9000#16]).prog[(base.withProgram [0x9000#16]).dpc]? = some 0x9000#16 := by
  refine ⟨?_, rfl, rfl, rfl⟩
  intro w hw
  simp only [List.mem_cons, List.not_mem_nil, or_false] at hw
  rcases hw with h | h | h | h | h | h | h | h <;> subst h <;> exact ⟨_, rfl⟩

theorem witness_CommandByteSelects : (0x73#8 : Byte) ≠ 0x72#8 ∧ (0x73#8 : Byte) ≠ 0x74#8 := by decide

theorem witness_HistoryAfterTicks : base.clkEn = true := rfl

theorem witness_WindowAfterTicks : base.clkEn = true := rfl

/-- Enabled by the clock, and by a late tick. -/
theorem witness_TickAdvancesAndShifts :
    (base.clkEn = true ∨ 0 < base.late) ∧
    (({ base with clkEn := false, late := 1 } : State).clkEn = true ∨
      0 < ({ base with clkEn := false, late := 1 } : State).late) := by decide

theorem witness_TickFrame : base.clkEn = true ∨ 0 < base.late := .inl rfl

theorem witness_ArmsExactlyAfterEightLows :
    ∃ u, runTicks (List.replicate 8 (false, 0#8)) base = .next u ∧ u.st = .idle ∧
      8 ≤ (List.replicate 8 (false, 0#8)).length :=
  ⟨_, rfl, by decide, by decide⟩

theorem witness_DebounceFromReset :
    (0x01#8 : Byte).getLsbD 0 = true ∧ (List.replicate 7 (false, 0#8)).length < 8 ∧
    ∀ x ∈ List.replicate 7 (false, 0#8), x.1 = false :=
  ⟨by decide, by decide, fun x hx => by rw [List.eq_of_mem_replicate hx]⟩

theorem witness_EightLowsThenHighArms :
    base.clkEn = true ∧ base.st = .idle ∧ (List.replicate 8 (false, 0#8)).length = 8 ∧
    ∀ x ∈ List.replicate 8 (false, 0#8), x.1 = false :=
  ⟨rfl, rfl, by decide, fun x hx => by rw [List.eq_of_mem_replicate hx]⟩

theorem witness_NoRetriggerOnLevel :
    ∃ t, base.clkEn = true ∧ exec (.tick true 0#8) base = .next t ∧
      (List.replicate 7 (false, 0#8)).length < 8 ∧
      ∃ u w, runTicks (List.replicate 8 (false, 0#8)) t = .next u ∧ ArmsAt u true 0#8 w :=
  ⟨_, rfl, rfl, by decide, _, _, rfl, rfl, by decide, by decide⟩

/-- Enabled by the clock, by a late tick, and not enabled, with the word at `dpc`. -/
theorem witness_TickEnabledExactly :
    (base.clkEn = true ∨ 0 < base.late) ∧
    (∃ s : State, s.clkEn = false ∧ (s.clkEn = true ∨ 0 < s.late)) ∧
    ∃ s : State, s.clkEn = false ∧ s.late = 0 ∧ s.form = .direct ∧ s.refused = false ∧
      s.prog[s.dpc]? = some 0x0180#16 ∧ decodeOp16 0x0180#16 = .ok (.tick true 0x80#8) :=
  ⟨.inl rfl, ⟨{ base with clkEn := false, late := 1 }, rfl, .inr (by decide)⟩,
    { base.withProgram [0x0180#16] with clkEn := false }, rfl, rfl, rfl, rfl, rfl, by decide⟩

theorem witness_TickStoresSample :
    (base.clkEn = true ∨ 0 < base.late) ∧ (0 : Nat) ≠ (pre 1023#10 0#8 .idle).head.toNat := by decide

/-- A state for each clause. -/
theorem witness_TickMovesTrigger :
    (pre 0#10 0#8 .frozen).st = .frozen ∧
    ((pre 0#10 0#8 (.armed 0#10)).st = .armed 0#10 ∧ (pre 0#10 0#8 (.armed 0#10)).head = 0#10) ∧
    ((pre 1#10 0#8 (.armed 0#10)).st = .armed 0#10 ∧ (pre 1#10 0#8 (.armed 0#10)).head ≠ 0#10) ∧
    ((pre 512#10 0#8 .idle).st = .idle ∧ (pre 512#10 0#8 .idle).hist = 0x00#8) ∧
    ((pre 0#10 0x80#8 .idle).st = .idle ∧ (pre 0#10 0x80#8 .idle).hist ≠ 0x00#8) ∧
    (pre 0#10 0x80#8 .idle).clkEn = true := by decide

theorem witness_TickMarksLostFreeze :
    (({ pre 0#10 0#8 .frozen with obsFrozen := true } : State).st = .frozen ∧
      ({ pre 0#10 0#8 .frozen with obsFrozen := true } : State).obsFrozen = true) ∧
    (pre 0#10 0#8 .idle).st ≠ .frozen ∧ (pre 0#10 0#8 .frozen).obsFrozen = false ∧
    ∃ t, exec (.tick true 0#8) { pre 0#10 0#8 .frozen with obsFrozen := false } = .next t := by
  refine ⟨by decide, by decide, by decide, _, rfl⟩

/-- The state after the arm tick of T2. -/
theorem witness_arm : ∃ t, ArmsAt (pre 10#10 0x00#8 .idle) true 0x80#8 t :=
  ⟨_, rfl, by decide, by decide⟩

theorem witness_ArmToFreezeDistance :
    (∃ t, (pre 10#10 0x00#8 .idle).clkEn = true ∧ ArmsAt (pre 10#10 0x00#8 .idle) true 0x80#8 t) ∧
    (List.replicate 511 (false, (0#8 : Byte))).length < 512 ∧
    (List.replicate 512 (false, (0#8 : Byte))).length = 512 ∧
    (List.replicate 512 (false, (0#8 : Byte))).length < 513 ∧
    (List.replicate 513 (false, (0#8 : Byte))).length = 513 :=
  ⟨⟨_, rfl, rfl, by decide, by decide⟩,
    by rw [List.length_replicate]; decide, List.length_replicate,
    by rw [List.length_replicate]; decide, List.length_replicate⟩

theorem witness_TriggersAtLeast514Apart :
    (∃ t, (pre 10#10 0x00#8 .idle).clkEn = true ∧ ArmsAt (pre 10#10 0x00#8 .idle) true 0x80#8 t) ∧
    (List.replicate 513 (false, (0#8 : Byte))).length = 513 :=
  ⟨⟨_, rfl, rfl, by decide, by decide⟩, List.length_replicate⟩

theorem witness_FrozenWindowIsCentred :
    (∃ t, (pre 600#10 0x00#8 .idle).clkEn = true ∧ ArmsAt (pre 600#10 0x00#8 .idle) true 0x80#8 t) ∧
    (List.replicate 512 (true, (0x33#8 : Byte))).length = 512 :=
  ⟨⟨_, rfl, rfl, by decide, by decide⟩, List.length_replicate⟩

/-- T9. -/
theorem witness_FrozenLastsOneTick :
    ∃ t u, (pre 522#10 0xFF#8 (.armed 522#10)).st ≠ .frozen ∧
      (pre 522#10 0xFF#8 (.armed 522#10)).clkEn = true ∧
      exec (.tick true 0x33#8) (pre 522#10 0xFF#8 (.armed 522#10)) = .next t ∧ t.st = .frozen ∧
      exec (.tick true 0x11#8) t = .next u :=
  ⟨_, _, by decide, rfl, rfl, by decide, rfl⟩

theorem witness_ClkStopStopsTheClock : ({ base with clkEn := false } : State).clkEn = false := rfl

theorem witness_ClkStartRestartsTheClock : base.clkEn = true ∧ base.late = 0 := ⟨rfl, rfl⟩

/-- A written cell and an `Unwritten` one, by both reads, at the top of the buffer. -/
theorem witness_BufferReads :
    ∃ s : State, Memory.read s.buf (1023#10 : Index).toNat = some 0x42#8 ∧
      Memory.read s.buf (0#10 : Index).toNat = none ∧
      Memory.read s.buf ((s.head.toNat + (1023#10 : Index).toNat) % 1024) = some 0x42#8 ∧
      Memory.read s.buf ((s.head.toNat + (0#10 : Index).toNat) % 1024) = none :=
  ⟨{ base with buf := [(1023, 0x42#8)] }, by decide, by decide, by decide, by decide⟩

theorem witness_RdStopReads :
    (pre 0#10 0#8 (.armed 1023#10)).st = .armed 1023#10 ∧ ∀ p, base.st ≠ .armed p := by
  refine ⟨rfl, ?_⟩
  intro p h
  cases h

/-- The fence: a stop, and a step while stopped in each form. -/
theorem witness_StoppedClockFencesTheCore :
    (∃ t, base.clkEn = true ∧ exec .clkStop base = .next t) ∧
    (∃ t, step { consumerTurn .rPoll [] with clkEn := false } = .next t) ∧
    ∃ t, step { base.withProgram [0x4000#16] with clkEn := false } = .next t :=
  ⟨⟨_, rfl, rfl⟩, ⟨_, rfl⟩, ⟨_, rfl⟩⟩

/-- A next state of a tick, of a clock stop, of a level step and of a read. -/
theorem witness_EachAgentWritesItsOwn :
    (∃ t, exec (.tick true 0#8) base = .next t) ∧ (∃ t, exec .clkStop base = .next t) ∧
    (∃ t, exec (.cmdT 0x30#8 0x30#8 0x37#8) { base with cons := .tDig2 0x30#8 0x30#8 } = .next t) ∧
    ∃ t, exec .rdHead base = .next t :=
  ⟨⟨_, rfl⟩, ⟨_, rfl⟩, ⟨_, rfl⟩, ⟨_, rfl⟩⟩

theorem witness_MarksAreSticky :
    ∃ t, step { consumerTurn .rPoll [] with unsyncRead := true, freezeLost := true, refused := true } =
      .next t :=
  ⟨_, rfl⟩

theorem witness_WaitCmdDecodes :
    (consumerTurn .waitCmd [0x72#8]).form = .reference ∧
    (consumerTurn .waitCmd [0x72#8]).sched = .consumer :: [] ∧
    (consumerTurn .waitCmd [0x72#8]).cons = .waitCmd ∧
    (consumerTurn .waitCmd [0x72#8]).rx = 0x72#8 :: [] := ⟨rfl, rfl, rfl, rfl⟩

theorem witness_CommandsStartAtWaitCmd : base.cons = .waitCmd := rfl

theorem witness_PollWaitsForFrozen :
    (consumerTurn .rPoll []).cons = .rPoll ∧ (consumerTurn .rStop []).cons = .rStop ∧
    (consumerTurn .rStart []).cons = .rStart := ⟨rfl, rfl, rfl⟩

theorem witness_StopStepStopsTheClock : (consumerTurn .rStop []).cons = .rStop := rfl

theorem witness_RestartStepRestartsTheClock : (consumerTurn .rStart []).cons = .rStart := rfl

theorem witness_ReferenceConsumerNeverStops : base.form = .reference := rfl

/-- The first and the last window byte, held and ready, written and `Unwritten`. -/
theorem witness_SendStepSendsWindowByte :
    (consumerTurn (.rSend 1023#10) []).cons = .rSend 1023#10 ∧
    (consumerTurn (.rSend 0#10) []).txReady = false ∧
    ({ consumerTurn (.rSend 0#10) [] with txReady := true } : State).txReady = true ∧
    Memory.read (consumerTurn (.rSend 0#10) []).buf
      (((consumerTurn (.rSend 0#10) []).head.toNat + (0#10 : Index).toNat) % 1024) = none ∧
    Memory.read ({ consumerTurn (.rSend 1023#10) [] with buf := [(1023, 1#8)] } : State).buf
      (((consumerTurn (.rSend 1023#10) []).head.toNat + (1023#10 : Index).toNat) % 1024) =
      some 1#8 := by decide

theorem witness_DigitStepsCollect :
    (consumerTurn .tDig0 []).cons = .tDig0 ∧
    (consumerTurn (.tDig1 0x31#8) []).cons = .tDig1 0x31#8 := ⟨rfl, rfl⟩

/-- `"255"`, `"256"`, and a byte that is no digit. -/
theorem witness_LevelStepWritesDuty :
    (consumerTurn (.tDig2 0x32#8 0x35#8) []).cons = .tDig2 0x32#8 0x35#8 ∧
    (∀ x ∈ [0x32#8, 0x35#8, (0x35#8 : Byte)], 0x30 ≤ x.toNat ∧ x.toNat ≤ 0x39) ∧
    100 * ((0x32#8 : Byte).toNat - 0x30) + 10 * ((0x35#8 : Byte).toNat - 0x30) +
      ((0x35#8 : Byte).toNat - 0x30) ≤ 255 ∧
    255 < 100 * ((0x32#8 : Byte).toNat - 0x30) + 10 * ((0x35#8 : Byte).toNat - 0x30) +
      ((0x36#8 : Byte).toNat - 0x30) ∧
    ∃ x ∈ [0x32#8, 0x35#8, (0x2F#8 : Byte)], x.toNat < 0x30 ∨ 0x39 < x.toNat := by decide

/-- A position in each command with its step, the last window byte with a command byte waiting, and the
guard's positions. -/
theorem witness_NoCommandInsideAnother :
    (∃ t, (consumerTurn .tDig0 [0x72#8]).cons = .tDig0 ∧
      step (consumerTurn .tDig0 [0x72#8]) = .next t) ∧
    (∃ t, (consumerTurn (.tDig2 0x74#8 0x72#8) [0x72#8]).cons = .tDig2 0x74#8 0x72#8 ∧
      step (consumerTurn (.tDig2 0x74#8 0x72#8) [0x72#8]) = .next t) ∧
    (∃ t, (consumerTurn (.rSend 1023#10) [0x74#8]).cons = .rSend 1023#10 ∧
      step (consumerTurn (.rSend 1023#10) [0x74#8]) = .next t) ∧
    (∃ t, (consumerTurn .rStart [0x72#8]).cons = .rStart ∧
      step (consumerTurn .rStart [0x72#8]) = .next t) ∧
    (consumerTurn .rPoll []).cons ≠ .waitCmd :=
  ⟨⟨_, rfl, rfl⟩, ⟨_, rfl, rfl⟩, ⟨_, rfl, rfl⟩, ⟨_, rfl, rfl⟩, by decide⟩

/-- `"t007"`, the least and the greatest value. -/
theorem witness_LevelCommandSetsDuty :
    ∃ s : State, s.form = .reference ∧ s.cons = .waitCmd ∧
      s.rx = 0x74#8 :: 0x30#8 :: 0x30#8 :: 0x37#8 :: [] ∧
      s.sched = .consumer :: .consumer :: .consumer :: .consumer :: [] ∧
      (∀ x ∈ [0x30#8, 0x30#8, (0x37#8 : Byte)], 0x30 ≤ x.toNat ∧ x.toNat ≤ 0x39) ∧
      100 * ((0x30#8 : Byte).toNat - 0x30) + 10 * ((0x30#8 : Byte).toNat - 0x30) +
        ((0x37#8 : Byte).toNat - 0x30) ≤ 255 :=
  ⟨{ base with
      rx := [0x74#8, 0x30#8, 0x30#8, 0x37#8],
      sched := [.consumer, .consumer, .consumer, .consumer] },
    rfl, rfl, rfl, rfl, by decide, by decide⟩

/-- `n` cells from `lo` on, each holding 0. -/
def zeros : Nat → Nat → Memory
  | _, 0 => []
  | lo, n + 1 => (lo, 0#8) :: zeros (lo + 1) n

theorem zeros_read (n : Nat) : ∀ lo a, lo ≤ a → a < lo + n → Memory.read (zeros lo n) a = some 0#8 := by
  induction n with
  | zero => intro lo a h1 h2; omega
  | succ n ih =>
    intro lo a h1 h2
    by_cases h : a = lo
    · simp [zeros, Memory.read, h]
    · simp [zeros, Memory.read, h, ih (lo + 1) a (by omega) (by omega)]

/-- A written buffer, the clock stopped, the dump at the position `c` having sent `bs`. -/
def dumping (c : Cons) (bs : List Byte) : State :=
  { base with
    st := .frozen, clkEn := false, buf := zeros 0 1024, cons := c, tx := bs, sched := [.hostAccept] }

theorem dumping_allWritten (c : Cons) (bs : List Byte) : (dumping c bs).allWritten := by
  intro j _
  have h : (dumping c bs).windowCell j = some 0#8 :=
    zeros_read 1024 0 _ (Nat.zero_le _) (by simp only [Config.capacity]; omega)
  simp [h]

theorem dumping_step (c : Cons) (bs : List Byte) : ∃ t, step (dumping c bs) = .next t := by
  obtain ⟨t, h, _⟩ := turnStep_next .hostAccept ({ dumping c bs with sched := [] } : State)
  exact ⟨t, h⟩

theorem windowBytes_eq_of_same {s t : State} (k : Nat) (hb : s.buf = t.buf) (hh : s.head = t.head) :
    s.windowBytes k = t.windowBytes k := by
  unfold State.windowBytes
  congr 1
  funext j
  simp [State.windowCell, hb, hh]

theorem dumping_end (bs : List Byte) (h : bs = (dumping .rStart []).windowBytes 1024) :
    (dumping .rStart bs).tx = [] ++ (dumping .rStart bs).windowBytes Config.capacity := by
  rw [List.nil_append, windowBytes_eq_of_same (s := dumping .rStart bs) (t := dumping .rStart []) Config.capacity rfl rfl]
  exact h

/-- A dump at its first byte and one at its end, each with a step; and a consumer at `RStop`. -/
theorem witness_DumpSendsWindowInOrder :
    (DumpInProgress [] (dumping (.rSend 0#10) []) ∧
      ∃ t, step (dumping (.rSend 0#10) []) = .next t) ∧
    (DumpInProgress [] (dumping .rStart ((dumping .rStart []).windowBytes 1024)) ∧
      ∃ t, step (dumping .rStart ((dumping .rStart []).windowBytes 1024)) = .next t) ∧
    ∃ s : State, s.form = .reference ∧ s.clkEn = true ∧ s.cons = .rStop ∧ s.allWritten := by
  refine ⟨⟨⟨rfl, rfl, rfl, dumping_allWritten _ _, .inl ⟨0#10, rfl, ?_⟩⟩, dumping_step _ _⟩,
    ⟨⟨rfl, rfl, rfl, dumping_allWritten _ _, .inr ⟨rfl, ?_⟩⟩, dumping_step _ _⟩,
    { dumping .rStop [] with clkEn := true }, rfl, rfl, rfl, dumping_allWritten .rStop []⟩
  · simp [dumping, State.windowBytes]
  · exact dumping_end _ rfl

/-- A round of a tick, the consumer and the transport, again and again. -/
def roundTurn (n : Nat) : Turn :=
  if n % 3 = 0 then .tick false 0#8 else if n % 3 = 1 then .consumer else .hostAccept

/-- The run with these turns from `RStop`. -/
def roundRun : Nat → State
  | 0 => { pre 0#10 0#8 .frozen with cons := .rStop }
  | n + 1 =>
    match turnStep (roundTurn n) (roundRun n) with
    | .next t => t
    | .fault _ => roundRun n
    | .refused _ => roundRun n

theorem roundRun_isRun : IsRun roundTurn roundRun := by
  intro n
  obtain ⟨t, h, _⟩ := turnStep_next (roundTurn n) (roundRun n)
  simp [roundRun, h]

theorem witness_FairDumpEnds :
    IsRun roundTurn roundRun ∧ WeaklyFair roundTurn roundRun ∧ (roundRun 0).cons = .rStop := by
  refine ⟨roundRun_isRun, ⟨?_, ?_, ?_⟩, rfl⟩
  · intro n _
    exact ⟨3 * n, false, 0#8, by omega, by simp [roundTurn]⟩
  · intro n _
    exact ⟨3 * n + 1, by omega, by simp [roundTurn, Nat.add_mod]⟩
  · intro n j _
    exact ⟨3 * n + 2, by omega, by simp [roundTurn, Nat.add_mod]⟩

theorem witness_FirstTickAfterDumpRearms :
    (dumping .rStart []).cons = .rStart ∧ (dumping .rStart []).st = .frozen := ⟨rfl, rfl⟩

theorem witness_FreezeRaceShiftsWindow :
    ∃ s : State, (s.clkEn = true ∨ 0 < s.late) ∧ s.st = .frozen ∧ s.obsFrozen = true :=
  ⟨{ pre 523#10 0xFF#8 .frozen with obsFrozen := true }, .inl rfl, rfl, rfl⟩

theorem witness_StepRunsInterfaceWord :
    (∃ s : State, s.form = .direct ∧ s.refused = false ∧ s.prog[s.dpc]? = some 0x6000#16 ∧
      decodeOp16 0x6000#16 = .ok .rdHead) ∧
    ∃ s : State, s.form = .direct ∧ s.refused = false ∧ s.dpc = s.prog.length :=
  ⟨⟨base.withProgram [0x6000#16], rfl, rfl, rfl, by decide⟩, base.withProgram [], rfl, rfl, rfl⟩

/-- A whole `'t'` at the front, an operand byte at each digit position, no byte, and a dump's position. -/
theorem witness_StepRunsCommand :
    (decodeCmd8 (consumerTurn .waitCmd [0x74#8, 0x30#8, 0x30#8, 0x37#8]).rx =
      .ok (.cmdT 0x30#8 0x30#8 0x37#8, [])) ∧
    (consumerTurn .tDig0 [0x72#8]).rx = 0x72#8 :: [] ∧
    (consumerTurn (.tDig1 0x30#8) [0x74#8]).cons = .tDig1 0x30#8 ∧
    (consumerTurn (.tDig2 0x30#8 0x30#8) [0x37#8]).cons = .tDig2 0x30#8 0x30#8 ∧
    (consumerTurn .waitCmd []).rx = [] ∧ (consumerTurn .rPoll []).cons = .rPoll := by decide

theorem witness_StepTakesTurns :
    ({ base with sched := [.tick true 1#8] } : State).sched = .tick true 1#8 :: [] ∧
    ({ base with sched := [.hostSend 1#8] } : State).sched = .hostSend 1#8 :: [] ∧
    ({ base with sched := [.hostAccept] } : State).sched = .hostAccept :: [] ∧
    base.sched = [] ∧ base.form = .reference ∧
    ({ base with clkEn := false } : State).late = 0 := ⟨rfl, rfl, rfl, rfl, rfl, rfl⟩

/-- Each of the named stops happens. -/
theorem witness_StopsAreTheNamedOnes :
    step (base.withProgram []) = .fault .runEnded ∧
    step { base.withProgram [0x0180#16] with clkEn := false } = .fault .tickNotEnabled ∧
    step { base.withProgram [0x9000#16] with refused := true } = .refused .reservedWord :=
  ⟨rfl, rfl, rfl⟩

/-- A state of each form that meets the invariant and steps. -/
theorem witness_StepKeepsInvariant :
    (∃ t, ({ base with sched := [.tick true 1#8] } : State).Inv ∧
      step { base with sched := [.tick true 1#8] } = .next t) ∧
    ∃ t, (base.withProgram [0x6000#16]).Inv ∧ step (base.withProgram [0x6000#16]) = .next t := by
  refine ⟨⟨_, ⟨rfl, ?_, by decide, fun _ => rfl, ?_, fun _ => ⟨rfl, by decide, rfl, rfl⟩⟩, rfl⟩,
    _, ⟨rfl, ?_, by decide, fun _ => rfl, fun _ => by decide, ?_⟩, rfl⟩
  · intro p h; cases h
  · intro h; cases h
  · intro p h; cases h
  · intro h; cases h

end Sys2Proof.Tests
end

section
/-! O5 and O7: the reserved interface words (R78) and the pseudo-instructions (R82). -/
namespace Sys2Proof

/-! ### The rows of R74 as ranges of numbers -/

theorem opField_toNat (w : Word) : (opField w).toNat = w.toNat / 4096 := by
  have hlt : w.toNat / 4096 < 16 := by have := w.isLt; omega
  simp [opField, BitVec.extractLsb'_toNat, Nat.shiftRight_eq_div_pow, Nat.mod_eq_of_lt hlt]

/-- Masking off the low `k` bits of a word rounds it down to a multiple of `2 ^ k`. -/
theorem toNat_and_allOnes_shiftLeft (k : Nat) (w : Word) :
    (w &&& BitVec.allOnes 16 <<< k).toNat = w.toNat / 2 ^ k * 2 ^ k := by
  have hlt : w.toNat / 2 ^ k * 2 ^ k < 2 ^ 16 := (Nat.div_mul_le_self _ _).trans_lt w.isLt
  rw [← BitVec.shiftLeft_ushiftRight, BitVec.toNat_shiftLeft, BitVec.toNat_ushiftRight,
    Nat.shiftLeft_eq, Nat.shiftRight_eq_div_pow, Nat.mod_eq_of_lt hlt]

/-- How many low bits of its words a row leaves to the operands. -/
def Op16Row.operandBits (r : Op16Row) : Nat := Nat.log2 (2 ^ 16 - r.mask.toNat)

theorem op16Rows_mask_pat :
    ∀ r ∈ op16Rows, r.mask = BitVec.allOnes 16 <<< r.operandBits ∧ r.pat &&& r.mask = r.pat := by
  decide

/-- A row of R74 covers the words that agree with its match above the operand bits. -/
theorem Op16Row.covers_iff_div {r : Op16Row} (hr : r ∈ op16Rows) (w : Word) :
    r.covers w = true ↔ w.toNat / 2 ^ r.operandBits = r.pat.toNat / 2 ^ r.operandBits := by
  obtain ⟨hmask, hpat⟩ := op16Rows_mask_pat r hr
  calc r.covers w = true
    _ ↔ w &&& r.mask = r.pat &&& r.mask := by rw [r.covers_iff, hpat]
    _ ↔ w.toNat / 2 ^ r.operandBits * 2 ^ r.operandBits =
          r.pat.toNat / 2 ^ r.operandBits * 2 ^ r.operandBits := by
      rw [hmask, ← BitVec.toNat_inj, toNat_and_allOnes_shiftLeft, toNat_and_allOnes_shiftLeft]
    _ ↔ w.toNat / 2 ^ r.operandBits = r.pat.toNat / 2 ^ r.operandBits :=
      Nat.mul_left_inj (by positivity)

/-- The match of each row above its operand bits, and how many these are (R74 to R76). -/
theorem op16Rows_ranges :
    op16Rows.map (fun r => (r.operandBits, r.pat.toNat / 2 ^ r.operandBits)) =
      [(9, 0), (0, 0x1000), (0, 0x2000), (0, 0x3000), (10, 0x10), (10, 0x14), (0, 0x6000),
       (0, 0x7000), (0, 0x8000)] := by
  decide

/-- The words that no row covers, as the complement of the rows' ranges. -/
theorem no_row_covers_iff (w : Word) :
    (∀ r ∈ op16Rows, r.covers w = false) ↔
      w.toNat / 512 ≠ 0 ∧ w.toNat / 1024 ∉ [16, 20] ∧
      w.toNat ∉ [0x1000, 0x2000, 0x3000, 0x6000, 0x7000, 0x8000] := by
  calc (∀ r ∈ op16Rows, r.covers w = false)
    _ ↔ ∀ r ∈ op16Rows, w.toNat / 2 ^ r.operandBits ≠ r.pat.toNat / 2 ^ r.operandBits :=
      forall₂_congr fun r hr => by rw [← Bool.not_eq_true, Op16Row.covers_iff_div hr]
    _ ↔ ∀ x ∈ op16Rows.map (fun r => (r.operandBits, r.pat.toNat / 2 ^ r.operandBits)),
          w.toNat / 2 ^ x.1 ≠ x.2 := by rw [List.forall_mem_map]
    _ ↔ _ := by
      rw [op16Rows_ranges]
      simp
      omega

/-! ### Reserved words (R78) -/

/-- The values of `op` whose reserved words are refused for the reason `r` (R78). -/
def Reject.reservedOps : Reject → List Nat
  | .reservedOp => [9, 10, 11, 12, 13, 14, 15]
  | .reservedTickBits => [0]
  | .reservedOperand => [1, 2, 3, 6, 7, 8]
  | .reservedIndexBits => [4, 5]
  | .noCommandByte | .operandBytesMissing | .trailingBytes => []

theorem reservedReason_eq_iff (w : Word) (r : Reject) :
    reservedReason w = r ↔ w.toNat / 4096 ∈ r.reservedOps := by
  have hlt : w.toNat / 4096 < 16 := by have := w.isLt; omega
  unfold reservedReason
  rw [opField_toNat]
  generalize w.toNat / 4096 = op at hlt
  revert op
  cases r <;> decide

theorem decodeOp16_error_iff (w : Word) (r : Reject) :
    decodeOp16 w = .error r ↔ (∀ row ∈ op16Rows, row.covers w = false) ∧ reservedReason w = r := by
  constructor
  · intro hd
    obtain ⟨_, h⟩ | ⟨_, h⟩ | ⟨_, h⟩ | ⟨_, h⟩ | ⟨_, h⟩ | ⟨_, h⟩ | ⟨_, h⟩ | ⟨_, h⟩ | ⟨_, h⟩ | ⟨hno, h⟩ :=
      decodeOp16_cases w <;> rw [h] at hd <;> cases hd
    exact ⟨hno, rfl⟩
  · rintro ⟨hno, rfl⟩
    simp only [op16Rows, List.forall_mem_cons] at hno
    simp [decodeOp16, hno]

/-- The decoder's refusals as arithmetic: no row of R74 covers the word, and its `op` gives the reason
(R78). -/
theorem decodeOp16_error_iff_toNat (w : Word) (r : Reject) :
    decodeOp16 w = .error r ↔
      (w.toNat / 512 ≠ 0 ∧ w.toNat / 1024 ∉ [16, 20] ∧
        w.toNat ∉ [0x1000, 0x2000, 0x3000, 0x6000, 0x7000, 0x8000]) ∧
      w.toNat / 4096 ∈ r.reservedOps := by
  rw [decodeOp16_error_iff, no_row_covers_iff, reservedReason_eq_iff]

namespace Machine

theorem step_refused {s : State} (hf : s.form = .direct) (hr : s.refused = true) :
    step s = .refused .reservedWord := by
  simp [step, fetch, hf, fetchDirect, hr, runFetched]

/-- Settles O5: a word is reserved for a reason exactly when no row's range of numbers holds it and its
`op` is one of the reason's. -/
theorem reservedWordsAreRefused : Obligations.ReservedWordsAreRefused := by
  unfold Obligations.ReservedWordsAreRefused
  intro w
  have hlt := w.isLt
  have herr := decodeOp16_error_iff_toNat w
  refine ⟨?_, ?_, ?_, ?_, fun r hd => ⟨?_, fun s hf hr hw => ?_⟩⟩
  · simp [herr, Reject.reservedOps]; omega
  · simp [herr, Reject.reservedOps]; omega
  · simp [herr, Reject.reservedOps]; omega
  · simp [herr, Reject.reservedOps]; omega
  · obtain ⟨-, hop⟩ := (herr r).1 hd
    cases r <;> simp [Reject.reservedOps] at hop ⊢
  · exact ⟨step_reservedWord hf hr hw hd, step_refused hf rfl⟩

/-! ### The pseudo-instructions (R82) -/

theorem windowReads_length : windowReads.length = 1024 := by
  simp [windowReads, Config.capacity]

theorem windowReads_getElem? (j : Index) : windowReads[j.toNat]? = some (.rdChron j) := by
  have hj : j.toNat < Config.capacity := j.isLt
  simp [windowReads, List.getElem?_range hj]

/-- Settles O7: `readwin`'s parts are found by their positions in its list, `windowReads` by its length. -/
theorem pseudoInstructionsExpand : Obligations.PseudoInstructionsExpand := by
  unfold Obligations.PseudoInstructionsExpand
  refine ⟨fun _ _ _ => rfl, fun _ => rfl, fun _ => rfl, ?_, rfl, fun j => ?_, ?_⟩
  · simp [TraceLine.expand, windowReads_length]
  · have hj : j.toNat < windowReads.length := by rw [windowReads_length]; exact j.isLt
    rw [TraceLine.expand, List.getElem?_cons_succ, List.getElem?_append_left hj,
      windowReads_getElem?]
  · rw [TraceLine.expand, List.getElem?_cons_succ, List.getElem?_append_right windowReads_length.le,
      windowReads_length]
    rfl

end Machine
end Sys2Proof
end

section
/-! O11 and O12: the qualifier and the history shift as arithmetic (R100, R102). -/
namespace Sys2Proof.Machine

/-- Settles O11: the law of `qualify`. -/
theorem qualifyFires : Obligations.QualifyFires := qualify_iff

/-- Shifting in one tick's bit (R102) is the library's shift-and-append of a bit. -/
theorem histShift_eq_shiftConcat (h : Byte) (c : Bool) : histShift h c = h.shiftConcat c := by
  ext i hi
  cases i with
  | zero => simp [← BitVec.getLsbD_eq_getElem, histShift_getLsbD_zero, BitVec.getLsbD_shiftConcat]
  | succ i =>
    simp [← BitVec.getLsbD_eq_getElem, histShift_getLsbD_succ h c (Nat.lt_of_succ_lt_succ hi),
      BitVec.getLsbD_shiftConcat, hi]

theorem histShift_toNat (h : Byte) (c : Bool) :
    (histShift h c).toNat = (2 * h.toNat + c.toNat) % 256 := by
  rw [histShift_eq_shiftConcat, BitVec.toNat_shiftConcat, Nat.shiftLeft_eq, Nat.pow_one, Nat.mul_comm]

/-- Settles O12: the arithmetic of the library's shift-and-append. -/
theorem histShiftIsDoubling : Obligations.HistShiftIsDoubling := histShift_toNat

end Sys2Proof.Machine
end

section
/-! O18 to O22: what an enabled tick does, and where TICK is stuck (41_capture_tick.md). -/
namespace Sys2Proof.Machine

/-! ### Enabled and stuck (R121) -/

theorem exec_tick {s : State} (c : Bool) (v : Byte) (h : s.clkEn = true ∨ 0 < s.late) :
    exec (.tick c v) s = .next (s.tick c v) :=
  execTick_enabled c v (s.tickEnabled_iff.2 h)

theorem State.tickEnabled_eq_false {s : State} (hc : s.clkEn = false) (hl : s.late = 0) :
    s.tickEnabled = false := by
  simp [State.tickEnabled, hc, hl]

/-- A `tick` word of a trace is stuck where TICK is: advancing `dpc` does not enable it. -/
theorem step_tick_stuck {s : State} {w : Word} {c : Bool} {v : Byte} (hc : s.clkEn = false)
    (hl : s.late = 0) (hf : s.form = .direct) (hr : s.refused = false)
    (hw : s.prog[s.dpc]? = some w) (hd : decodeOp16 w = .ok (.tick c v)) :
    step s = .fault .tickNotEnabled := by
  rw [step_word hf hr hw hd]
  exact execTick_stuck c v (State.tickEnabled_eq_false hc hl)

/-- Settles O18, by the laws of an enabled and of a stuck TICK. -/
theorem tickEnabledExactly : Obligations.TickEnabledExactly := by
  unfold Obligations.TickEnabledExactly
  refine fun s c v => ⟨fun h => ⟨_, exec_tick c v h, s.tick_late c v⟩, fun hc hl => ⟨?_, ?_⟩⟩
  · exact execTick_stuck c v (State.tickEnabled_eq_false hc hl)
  · exact fun w hf hr hw hd => step_tick_stuck hc hl hf hr hw hd

/-! ### Steps 1, 5 and 6 (R122, R126, R127) -/

/-- Settles O19: the tick's buffer is one write at `head`, read back at the same and at other cells. -/
theorem tickStoresSample : Obligations.TickStoresSample := by
  unfold Obligations.TickStoresSample
  refine fun s c v h => ⟨_, exec_tick c v h, ?_, fun a ha => ?_⟩
  · rw [State.tick_buf, Memory.read_write_same]
  · rw [State.tick_buf, Memory.read_write_other _ _ ha]

/-- Settles O21: the arithmetic of the cursor's advance and of the history shift. -/
theorem tickAdvancesAndShifts : Obligations.TickAdvancesAndShifts := by
  unfold Obligations.TickAdvancesAndShifts
  refine fun s c v h => ⟨_, exec_tick c v h, ?_, ?_⟩
  · rw [State.tick_head, nextIndex_toNat]
  · rw [State.tick_hist, histShift_toNat]

/-! ### Steps 2, 3 and 4 (R123, R124, R125, R128) -/

/-- The trigger state after steps 2 to 4, as a function of the trigger state, `head` and `hist`. -/
theorem State.triggerStep_st (s : State) (c : Bool) :
    (s.triggerStep c).st =
      if s.st = .frozen then .idle
      else if s.st = .armed s.head then .frozen
      else if qualify s.hist s.st c then .armed (stopIndexFor s.head)
      else s.st := by
  unfold State.triggerStep
  split_ifs <;> rfl

theorem State.tick_st_of_frozen {s : State} (c : Bool) (v : Byte) (h : s.st = .frozen) :
    (s.tick c v).st = .idle := by
  rw [State.tick_st, State.triggerStep_st, if_pos h]

theorem State.tick_st_of_armed {s : State} {p : Index} (c : Bool) (v : Byte) (h : s.st = .armed p) :
    (s.tick c v).st = if s.head = p then .frozen else .armed p := by
  simp [State.tick_st, State.triggerStep_st, h, qualify, @eq_comm _ p]

theorem State.tick_st_of_idle {s : State} (c : Bool) (v : Byte) (h : s.st = .idle) :
    (s.tick c v).st = if s.hist = 0#8 ∧ c = true then .armed (stopIndexFor s.head) else .idle := by
  simp [State.tick_st, State.triggerStep_st, h, qualify_iff]

theorem stopIndexFor_eq_ofNat (h : Index) :
    stopIndexFor h = BitVec.ofNat 10 ((h.toNat + 512) % 1024) := by
  rw [← stopIndexFor_toNat, BitVec.ofNat_toNat, BitVec.setWidth_eq]

/-- Settles O20, by the law of a tick in each of the three trigger states. -/
theorem tickMovesTrigger : Obligations.TickMovesTrigger := by
  unfold Obligations.TickMovesTrigger
  refine fun s c v h => ⟨_, exec_tick c v h, s.tick_st_of_frozen c v, ?_, ?_, ?_, ?_⟩
  · intro p hst hp
    rw [State.tick_st_of_armed c v hst, if_pos hp]
  · intro p hst hp
    rw [State.tick_st_of_armed c v hst, if_neg hp]
  · intro hst hh hc
    rw [State.tick_st_of_idle c v hst, if_pos ⟨hh, hc⟩, stopIndexFor_eq_ofNat]
  · intro hst hq
    rw [State.tick_st_of_idle c v hst, if_neg]
    rintro ⟨hh, hc⟩
    simp [hh, hc] at hq

/-! ### The mark of a lost freeze (R135) -/

/-- Clearing `Frozen` with `obs_frozen` 1 sets the mark, and nothing else in a tick touches it. -/
theorem State.tick_freezeLost_eq (s : State) (c : Bool) (v : Byte) :
    (s.tick c v).freezeLost = (s.freezeLost || (decide (s.st = .frozen) && s.obsFrozen)) := by
  rw [State.tick_freezeLost]
  obtain ⟨hst, h⟩ | ⟨hst, h⟩ | ⟨hst, -, -, h⟩ | ⟨hst, -, -, h⟩ := s.triggerStep_cases c <;>
    simp [h, hst]

/-- The whole next state of a tick: the frame of the chain inside the four updates around it. -/
theorem State.tick_eq (s : State) (c : Bool) (v : Byte) :
    s.tick c v =
      { s with
        buf := Memory.write s.buf s.head.toNat v
        head := nextIndex s.head
        hist := histShift s.hist c
        st := (s.triggerStep c).st
        late := if s.clkEn then s.late else s.late - 1
        freezeLost := (s.triggerStep c).freezeLost } := by
  rw [← State.tick_st s c v, ← State.tick_freezeLost s c v]
  obtain ⟨st, fl, h⟩ := (s.spendLate.storeSample v).triggerStep_frame c
  rw [State.tick, h]
  rfl

/-- A tick looks at `obs_frozen` for its mark alone. -/
theorem State.tick_setObsFrozen (s : State) (c o : Bool) (v : Byte) :
    (s.setObsFrozen o).tick c v =
      { s.tick c v with
        freezeLost := ((s.setObsFrozen o).tick c v).freezeLost
        obsFrozen := o } := by
  have hst : ((s.setObsFrozen o).triggerStep c).st = (s.triggerStep c).st := by
    rw [State.triggerStep_st, State.triggerStep_st]
    rfl
  rw [State.tick_eq, State.tick_eq, hst]
  rfl

/-- Settles O22: the law of the mark, and that `obs_frozen` reaches nothing else. -/
theorem tickMarksLostFreeze : Obligations.TickMarksLostFreeze := by
  unfold Obligations.TickMarksLostFreeze
  refine fun s c v h => ⟨_, exec_tick c v h, fun hst ho => ?_, fun hor => ?_, fun o t' ht' => ?_⟩
  · simp [State.tick_freezeLost_eq, hst, ho]
  · obtain hst | ho := hor
    · simp [State.tick_freezeLost_eq, hst]
    · simp [State.tick_freezeLost_eq, ho]
  · have ht : (s.setObsFrozen o).tick c v = t' :=
      Host.Outcome.next.inj ((exec_tick (s := s.setObsFrozen o) c v h).symm.trans ht')
    rw [← ht, State.tick_setObsFrozen]

end Sys2Proof.Machine
end

section
/-! O29 to O35: the consumer's interface words, each by its word, its result and its frame
(42_consumer_ops.md). -/
namespace Sys2Proof

/-! ### The words of the indexed reads (R74, R76) -/

theorem opField_and (w m : Word) : opField (w &&& m) = opField w &&& opField m :=
  BitVec.extractLsb'_and

/-- Every mask keeps the whole of `op`, so a covered word has its row's `op`. -/
theorem Op16Row.opField_eq_of_covers {r : Op16Row} (hr : r ∈ op16Rows) {w : Word}
    (h : r.covers w = true) : opField w = opField r.pat := by
  have hmask : ∀ r ∈ op16Rows, opField r.mask = BitVec.allOnes 4 := by decide
  calc opField w
    _ = opField (w &&& r.mask) := by rw [opField_and, hmask r hr, BitVec.and_allOnes]
    _ = opField r.pat := by rw [(r.covers_iff w).1 h]

/-- The rows differ in `op`, so at most one covers a word. -/
theorem Op16Row.eq_of_covers {r r' : Op16Row} (hr : r ∈ op16Rows) (hr' : r' ∈ op16Rows) {w : Word}
    (h : r.covers w = true) (h' : r'.covers w = true) : r = r' := by
  have hop : ∀ r ∈ op16Rows, ∀ r' ∈ op16Rows, opField r.pat = opField r'.pat → r = r' := by decide
  exact hop r hr r' hr' ((opField_eq_of_covers hr h).symm.trans (opField_eq_of_covers hr' h'))

theorem Op16Row.not_covers_of_ne {r r' : Op16Row} (hr : r ∈ op16Rows) (hr' : r' ∈ op16Rows)
    {w : Word} (h : r.covers w = true) (hne : r' ≠ r) : r'.covers w = false :=
  Bool.eq_false_iff.2 fun h' => hne (eq_of_covers hr' hr h' h)

theorem decodeOp16_of_rowRdPhys {w : Word} (h : rowRdPhys.covers w = true) :
    decodeOp16 w = .ok (.rdPhys (indexField w)) := by
  have hno : ∀ r ∈ [rowTick, rowClkStop, rowClkStart, rowRdStatus], r.covers w = false :=
    fun r hr => Op16Row.not_covers_of_ne (by decide) (by revert r; decide) h (by revert r; decide)
  simp only [List.forall_mem_cons] at hno
  simp [decodeOp16, h, hno]

theorem decodeOp16_of_rowRdChron {w : Word} (h : rowRdChron.covers w = true) :
    decodeOp16 w = .ok (.rdChron (indexField w)) := by
  have hno : ∀ r ∈ [rowTick, rowClkStop, rowClkStart, rowRdStatus, rowRdPhys], r.covers w = false :=
    fun r hr => Op16Row.not_covers_of_ne (by decide) (by revert r; decide) h (by revert r; decide)
  simp only [List.forall_mem_cons] at hno
  simp [decodeOp16, h, hno]

/-- The ten operand bits of an indexed read hold the index (R76). -/
theorem indexField_append (k : BitVec 6) (a : Index) : indexField (k ++ a) = a :=
  BitVec.extractLsb'_append_eq_right

/-- A row that masks off just the operand bits covers its match with any index in them (R76). -/
theorem Op16Row.covers_append {r : Op16Row} {k : BitVec 6} (hpat : r.pat = k ++ 0#10)
    (hmask : r.mask = BitVec.allOnes 6 ++ 0#10) (a : Index) : r.covers (k ++ a) = true := by
  rw [Op16Row.covers_iff, hpat, hmask]
  calc (k ++ a) &&& (BitVec.allOnes 6 ++ 0#10)
    _ = (k &&& BitVec.allOnes 6) ++ (a &&& 0#10) := BitVec.and_append
    _ = k ++ 0#10 := by rw [BitVec.and_allOnes, BitVec.and_zero]

theorem decodeOp16_rdPhys (a : Index) :
    decodeOp16 (0x4000#16 ||| a.zeroExtend 16) = .ok (.rdPhys a) := by
  have hw : 0x4000#16 ||| a.zeroExtend 16 = 0x10#6 ++ a := rfl
  rw [hw, decodeOp16_of_rowRdPhys (Op16Row.covers_append rfl rfl a), indexField_append]

theorem decodeOp16_rdChron (j : Index) :
    decodeOp16 (0x5000#16 ||| j.zeroExtend 16) = .ok (.rdChron j) := by
  have hw : 0x5000#16 ||| j.zeroExtend 16 = 0x14#6 ++ j := rfl
  rw [hw, decodeOp16_of_rowRdChron (Op16Row.covers_append rfl rfl j), indexField_append]

namespace Machine

/-! ### The indexed reads (R153, R154, R159) -/

theorem exec_rdPhys {s : State} {a : Index} {r : Byte × State} (h : s.readPhys a = r) :
    exec (.rdPhys a) s = .next (State.logResult r) := by
  rw [← h]
  rfl

theorem exec_rdChron {s : State} {j : Index} {r : Byte × State} (h : s.readChron j = r) :
    exec (.rdChron j) s = .next (State.logResult r) := by
  rw [← h]
  rfl

/-- Settles O32, by the laws of the two reads for a written and for an `Unwritten` cell. -/
theorem bufferReads : Obligations.BufferReads := by
  unfold Obligations.BufferReads
  refine ⟨decodeOp16_rdPhys, decodeOp16_rdChron, fun s => ⟨fun a v h => ?_, fun a h => ?_,
    fun j v h => ?_, fun j h => ?_⟩⟩
  · exact exec_rdPhys (State.readPhys_written h)
  · exact ⟨_, _, exec_rdPhys (State.readPhys_unwritten h)⟩
  · exact exec_rdChron (State.readChron_written h)
  · exact ⟨_, _, exec_rdChron (State.readChron_unwritten h)⟩

/-! ### The clock (R150, R151) -/

theorem State.stopClock_of_stopped {s : State} (h : s.clkEn = false) :
    s.stopClock = s.setObsFrozen false := by
  simp [State.stopClock, State.setObsFrozen, h]

theorem State.startClock_of_running {s : State} (hc : s.clkEn = true) (hl : s.late = 0) :
    s.startClock = s := by
  rw [State.startClock, ← hc, ← hl]

/-- Settles O29: CLK_STOP is `stopClock`, which with the clock stopped only clears `obs_frozen`. -/
theorem clkStopStopsTheClock : Obligations.ClkStopStopsTheClock := by
  unfold Obligations.ClkStopStopsTheClock
  refine ⟨by decide, fun s => ⟨rfl, fun h => ?_⟩⟩
  exact congrArg Host.Outcome.next (State.stopClock_of_stopped h)

/-- Settles O30: CLK_START is `startClock`, which leaves a running clock as it is. -/
theorem clkStartRestartsTheClock : Obligations.ClkStartRestartsTheClock := by
  unfold Obligations.ClkStartRestartsTheClock
  refine ⟨by decide, fun s => ⟨rfl, fun hc hl => ?_⟩⟩
  exact congrArg Host.Outcome.next (State.startClock_of_running hc hl)

/-! ### The registers (R152, R155, R156, R157) -/

/-- The bit of STATUS that RD_STATUS keeps in `obs_frozen` is FROZEN (R152). -/
theorem State.readStatus_eq (s : State) :
    s.readStatus = (s.status, s.setObsFrozen (decide (s.st = .frozen))) := by
  rw [State.readStatus, State.status_getLsbD_zero]

/-- Settles O31: the result is STATUS, whose arithmetic and whose bit 0 the laws give. -/
theorem rdStatusReads : Obligations.RdStatusReads := by
  unfold Obligations.RdStatusReads
  refine ⟨by decide, fun s => ⟨s.status, s.status_toNat, ?_⟩⟩
  exact congrArg (Host.Outcome.next ∘ State.logResult) s.readStatus_eq

/-- Settles O33: RD_HEAD logs `head`. -/
theorem rdHeadReads : Obligations.RdHeadReads := by
  unfold Obligations.RdHeadReads
  exact ⟨by decide, fun s => rfl⟩

theorem State.readStop_of_armed {s : State} {p : Index} (h : s.st = .armed p) :
    s.readStop = (p, s) := by
  rw [State.readStop, h]

theorem State.readStop_of_not_armed {s : State} (h : ∀ p, s.st ≠ .armed p) :
    s.readStop = (Config.freeIndex s.draws, s.nextDraw) := by
  cases hst : s.st with
  | armed p => exact absurd hst (h p)
  | idle => rw [State.readStop, hst, State.drawIndex]
  | frozen => rw [State.readStop, hst, State.drawIndex]

theorem exec_rdStop {s : State} {r : Index × State} (h : s.readStop = r) :
    exec .rdStop s = .next (State.logResult r) := by
  rw [← h]
  rfl

/-- Settles O34, by the law of RD_STOP while armed and outside `Armed`. -/
theorem rdStopReads : Obligations.RdStopReads := by
  unfold Obligations.RdStopReads
  refine ⟨by decide, fun s => ⟨fun p h => ?_, fun h => ?_⟩⟩
  · exact exec_rdStop (State.readStop_of_armed h)
  · exact ⟨_, _, exec_rdStop (State.readStop_of_not_armed h)⟩

/-- Settles O35: RD_HIST logs `hist` and shifts nothing. -/
theorem rdHistReads : Obligations.RdHistReads := by
  unfold Obligations.RdHistReads
  exact ⟨by decide, fun s => rfl⟩

end Machine
end Sys2Proof
end

section
/-! O39, O41, O42 and O44: the reference consumer's command decode, poll, stop and restart
(43_command_processor.md). -/
namespace Sys2Proof.Machine

/-! ### Command decode (R173) -/

/-- Under the reference consumer the first turn chosen is the step (R206). -/
theorem step_of_sched_cons {s : State} {x : Turn} {ts : List Turn} (hf : s.form = .reference)
    (hs : s.sched = x :: ts) : step s = turnStep x (s.setSched ts) := by
  rw [step_reference hf, State.takeTurn, hs]

/-- Of all that a consumer's turn can do, only command decode fits `WaitCmd` with a byte waiting. -/
theorem turnStep_consumer_waitCmd {s : State} {b : Byte} {bs : List Byte} (hc : s.cons = .waitCmd)
    (hr : s.rx = b :: bs) :
    turnStep .consumer s = .next ((s.setRx bs).setCons
      (if b = 0x72#8 then .rPoll else if b = 0x74#8 then .tDig0 else .waitCmd)) := by
  obtain ⟨t, ht, hcase⟩ := turnStep_consumer s
  rw [ht]
  cases hcase with
  | command b' bs' hr' _ =>
    obtain ⟨rfl, rfl⟩ := List.cons.inj (hr.symm.trans hr')
    rfl
  | held hr' _ => cases hr.symm.trans hr'
  | digit0 _ _ _ hc' => cases hc.symm.trans hc'
  | digit1 _ _ _ _ hc' => cases hc.symm.trans hc'
  | digit2 _ _ _ _ _ hc' => cases hc.symm.trans hc'
  | poll hc' => cases hc.symm.trans hc'
  | stop hc' => cases hc.symm.trans hc'
  | send _ hc' => cases hc.symm.trans hc'
  | restart hc' => cases hc.symm.trans hc'

/-- Settles O39: the step is the consumer's turn chosen, and that turn is command decode. -/
theorem waitCmdDecodes : Obligations.WaitCmdDecodes := by
  unfold Obligations.WaitCmdDecodes
  intro s ts b bs hf hs hc hr
  rw [step_of_sched_cons hf hs]
  exact turnStep_consumer_waitCmd (s := s.setSched ts) hc hr

/-! ### CMD_R by position (R174, R175, R177) -/

theorem exec_cmdR_rPoll {s : State} (hc : s.cons = .rPoll) : exec .cmdR s = .next (pollStep s) := by
  rw [exec, execCmdR, hc]

theorem exec_cmdR_rStop {s : State} (hc : s.cons = .rStop) : exec .cmdR s = .next (stopStep s) := by
  rw [exec, execCmdR, hc]

theorem exec_cmdR_rStart {s : State} (hc : s.cons = .rStart) :
    exec .cmdR s = .next (restartStep s) := by
  rw [exec, execCmdR, hc]

/-- The poll goes by the FROZEN bit of the STATUS it reads, which is whether `st` is `Frozen` (R174). -/
theorem pollStep_eq (s : State) :
    pollStep s = (s.setObsFrozen (decide (s.st = .frozen))).setCons
      (if s.st = .frozen then .rStop else .rPoll) := by
  simp only [pollStep, State.readStatus_eq, State.status_getLsbD_zero, decide_eq_true_eq]

/-- Settles O41, by the law of the poll. -/
theorem pollWaitsForFrozen : Obligations.PollWaitsForFrozen := by
  unfold Obligations.PollWaitsForFrozen
  intro s hc
  rw [exec_cmdR_rPoll hc, pollStep_eq]
  rfl

/-- Settles O42: the step is CLK_STOP's update and then the move to window byte 0. -/
theorem stopStepStopsTheClock : Obligations.StopStepStopsTheClock := by
  unfold Obligations.StopStepStopsTheClock
  intro s hc
  rw [exec_cmdR_rStop hc, stopStep, State.stopClock, State.setCons]

/-- Settles O44: the step is CLK_START's update and then the move to `WaitCmd`; neither writes `st`. -/
theorem restartStepRestartsTheClock : Obligations.RestartStepRestartsTheClock := by
  unfold Obligations.RestartStepRestartsTheClock
  intro s hc
  rw [exec_cmdR_rStart hc, restartStep, State.startClock, State.setCons]

end Sys2Proof.Machine
end

section
/-! O23: the consumer's side of the tick's frame (60_exceptions.md). -/
namespace Sys2Proof.Machine

/-- Settles O23: an enabled TICK answers the whole tick (R121), and no step of the tick writes a field of
the consumer (R204). -/
theorem tickFrame : Obligations.TickFrame := by
  unfold Obligations.TickFrame
  intro s c v h
  exact ⟨s.tick c v, exec_tick c v h, s.tick_sameConsumer c v⟩

end Sys2Proof.Machine
end

section
/-! O8: the machine right after RESET (70_reset_and_hazards.md section 1). -/
namespace Sys2Proof.Machine

/-- Where nothing was ever written, every address reads `Unwritten` (R20, R51). -/
@[simp] theorem Memory.read_nil (a : Nat) : Memory.read [] a = none := rfl

/-- RESET leaves the whole buffer `Unwritten`, whatever the OPEN parameters are (R20, R230). -/
@[simp] theorem State.read_buf_resetWith (h d : Byte) (a : Nat) :
    Memory.read (State.resetWith h d).buf a = none := Memory.read_nil a

/-- Settles O8: the two OPEN parameters are what RESET from `reset` passes on, the buffer is the empty
memory, and each other field is the row that R230's table has for it. -/
theorem resetLeaves : Obligations.ResetLeaves := by
  unfold Obligations.ResetLeaves
  intro h d
  refine ⟨⟨Config.histReset, Config.dutyReset, rfl⟩, State.read_buf_resetWith h d, ?_⟩
  simp only [State.resetWith, Config.headReset, and_self]

end Sys2Proof.Machine
end

section
/-! O1 to O4 and O6: the decoders and the encoder agree, bit by bit (30_encoding.md). -/
namespace Sys2Proof

/-! ### TICK words (R75) -/

theorem zext16_toNat {n : Nat} (hn : n ≤ 16) (x : BitVec n) : (zext16 x).toNat = x.toNat :=
  BitVec.toNat_setWidth_of_le hn

theorem rowTick_covers_iff (w : Word) : rowTick.covers w = true ↔ w.toNat < 512 := by
  have h : rowTick.covers w = true ↔ w.toNat / 512 = 0 := Op16Row.covers_iff_div (by decide) w
  rw [h]
  omega

theorem tickBit_zext16 (c : Bool) (s : Byte) : tickBit (zext16 (BitVec.ofBool c ++ s)) = c := by
  rw [tickBit, zext16, BitVec.getLsbD_setWidth, BitVec.getLsbD_append]
  simp

theorem tickSample_zext16 (c : Bool) (s : Byte) : tickSample (zext16 (BitVec.ofBool c ++ s)) = s := by
  rw [tickSample, ← BitVec.setWidth_eq_extractLsb' (by decide), zext16,
    BitVec.setWidth_setWidth_of_le _ (by decide), BitVec.setWidth_append_eq_right]

theorem decodeOp16_tick (c : Bool) (s : Byte) :
    decodeOp16 (zext16 (BitVec.ofBool c ++ s)) = .ok (.tick c s) := by
  have hcov : rowTick.covers (zext16 (BitVec.ofBool c ++ s)) = true := by
    rw [rowTick_covers_iff, zext16_toNat (by decide)]
    exact (BitVec.ofBool c ++ s).isLt
  rw [decodeOp16, if_pos hcov, tickBit_zext16, tickSample_zext16]

/-- The low nine bits of a word are TICK's operands (R75). -/
theorem setWidth_eq_tickBit_append (w : Word) :
    w.setWidth 9 = BitVec.ofBool (tickBit w) ++ tickSample w := by
  have hbit : BitVec.ofBool (tickBit w) = w.extractLsb' 8 1 := by
    ext i hi
    obtain rfl : i = 0 := by omega
    simp [tickBit]
  rw [hbit, tickSample, BitVec.setWidth_eq_extractLsb' (by decide)]
  exact (BitVec.extractLsb'_append_extractLsb'_eq_extractLsb' (start₁ := 0) (len₁ := 8) rfl).symm

/-- Above its operands a TICK word is 0, so they are the whole of it (R75). -/
theorem zext16_tickBit_append {w : Word} (h : rowTick.covers w = true) :
    zext16 (BitVec.ofBool (tickBit w) ++ tickSample w) = w := by
  rw [rowTick_covers_iff] at h
  apply BitVec.eq_of_toNat_eq
  rw [← setWidth_eq_tickBit_append, zext16_toNat (by decide), BitVec.toNat_setWidth, Nat.mod_eq_of_lt h]

/-! ### The other rows (R74, R76) -/

/-- A row without operands covers its match alone. -/
theorem Op16Row.eq_pat_of_covers {r : Op16Row} (hmask : r.mask = BitVec.allOnes 16) {w : Word}
    (h : r.covers w = true) : w = r.pat := by
  rwa [Op16Row.covers_iff, hmask, BitVec.and_allOnes] at h

/-- A word that an indexed read's row covers is the row's match above the index (R76). -/
theorem Op16Row.append_indexField_of_covers {r : Op16Row} {k : BitVec 6} (hpat : r.pat = k ++ 0#10)
    (hmask : r.mask = BitVec.allOnes 6 ++ 0#10) {w : Word} (h : r.covers w = true) :
    k ++ indexField w = w := by
  have hw : w.extractLsb' 10 6 ++ indexField w = w :=
    BitVec.extractLsb'_append_extractLsb'_eq_extractLsb' rfl |>.trans BitVec.extractLsb'_eq_self
  rw [Op16Row.covers_iff, hpat, hmask, ← hw, BitVec.and_append, BitVec.and_allOnes, BitVec.and_zero,
    BitVec.append_left_inj] at h
  rw [← h, hw]

/-! ### Both directions (R70, R71) -/

theorem decodeCmd8_ignored {b : Byte} (rest : List Byte) (hr : b ≠ Config.cmdDump)
    (ht : b ≠ Config.cmdTrig) : decodeCmd8 (b :: rest) = .ok (.cmdIgn b, rest) := by
  simp [decodeCmd8, hr, ht]

/-- Settles O1: each interface word is decoded by its own row, and each command by its first byte. -/
theorem decodeOfEncode : Obligations.DecodeOfEncode := by
  unfold Obligations.DecodeOfEncode
  intro i hwf
  cases i with
  | tick c s => exact decodeOp16_tick c s
  | rdPhys a => exact decodeOp16_rdPhys a
  | rdChron j => exact decodeOp16_rdChron j
  | clkStop | clkStart | rdStatus | rdHead | rdStop | rdHist => decide
  | cmdR => rfl
  | cmdT d0 d1 d2 => rfl
  | cmdIgn b =>
    obtain ⟨hr, ht⟩ : b ≠ Config.cmdDump ∧ b ≠ Config.cmdTrig := by simpa [Instr.wellFormed] using hwf
    rw [encode, decode, decodeCmd8_ignored [] hr ht]

theorem encode_of_decodeOp16 {w : Word} {i : Instr} (h : decodeOp16 w = .ok i) :
    encode i = .op16 w ∧ i.wellFormed = true := by
  obtain ⟨hc, h'⟩ | ⟨hc, h'⟩ | ⟨hc, h'⟩ | ⟨hc, h'⟩ | ⟨hc, h'⟩ | ⟨hc, h'⟩ | ⟨hc, h'⟩ | ⟨hc, h'⟩ |
    ⟨hc, h'⟩ | ⟨_, h'⟩ := decodeOp16_cases w <;> cases h'.symm.trans h <;>
    refine ⟨congrArg Code.op16 ?_, rfl⟩
  · exact zext16_tickBit_append hc
  · exact (Op16Row.eq_pat_of_covers rfl hc).symm
  · exact (Op16Row.eq_pat_of_covers rfl hc).symm
  · exact (Op16Row.eq_pat_of_covers rfl hc).symm
  · exact Op16Row.append_indexField_of_covers (k := 0x10#6) rfl rfl hc
  · exact Op16Row.append_indexField_of_covers (k := 0x14#6) rfl rfl hc
  · exact (Op16Row.eq_pat_of_covers rfl hc).symm
  · exact (Op16Row.eq_pat_of_covers rfl hc).symm
  · exact (Op16Row.eq_pat_of_covers rfl hc).symm

/-- A decoded command, whichever it is, is encoded by the well-formed bytes in front of the rest (R71,
R80). -/
theorem encode_of_decodeCmd8 {bs rest : List Byte} {i : Instr} (h : decodeCmd8 bs = .ok (i, rest)) :
    ∃ front, bs = front ++ rest ∧ encode i = .cmd8 front ∧ i.wellFormed = true := by
  revert h
  fun_cases decodeCmd8 bs with
  | case1 => rintro ⟨⟩
  | case2 bs' =>
    rintro ⟨⟩
    exact ⟨[Config.cmdDump], rfl, rfl, rfl⟩
  | case3 d0 d1 d2 bs' _ =>
    rintro ⟨⟩
    exact ⟨[Config.cmdTrig, d0, d1, d2], rfl, rfl, rfl⟩
  | case4 => rintro ⟨⟩
  | case5 b bs' hr ht =>
    rintro ⟨⟩
    exact ⟨[b], rfl, rfl, by simp [Instr.wellFormed, hr, ht]⟩

/-- Settles O2, by the two decoders' inversions; a command is decoded only without bytes behind it. -/
theorem encodeOfDecode : Obligations.EncodeOfDecode := by
  unfold Obligations.EncodeOfDecode
  intro c i h
  cases c with
  | op16 w => exact encode_of_decodeOp16 h
  | cmd8 bs =>
    have hbs : decodeCmd8 bs = .ok (i, []) := by
      rw [decode] at h
      split at h
      · next hd => cases h; exact hd
      · cases h
      · cases h
    obtain ⟨front, rfl, henc, hwf⟩ := encode_of_decodeCmd8 hbs
    exact ⟨by rw [henc, List.append_nil], hwf⟩

/-! ### The table of rows and the words written out (R74, R71) -/

theorem decodeOp16_ok_iff (w : Word) :
    (∃ i, decodeOp16 w = .ok i) ↔ ∃ r ∈ op16Rows, r.covers w = true := by
  cases hd : decodeOp16 w with
  | ok i =>
    have hno := mt (decodeOp16_error_iff w (reservedReason w)).2 (by simp [hd])
    simpa using hno
  | error x =>
    obtain ⟨hno, -⟩ := (decodeOp16_error_iff w x).1 hd
    simpa using hno

/-- Settles O4: the rows differ in `op`, so at most one covers a word, and the decoder's refusals are the
words that none covers. -/
theorem oneRowCoversEachWord : Obligations.OneRowCoversEachWord := by
  unfold Obligations.OneRowCoversEachWord
  refine ⟨rfl, fun w => ⟨fun r hr r' hr' h h' => ?_, ?_⟩⟩
  · exact Op16Row.eq_of_covers hr hr' ((r.covers_iff w).2 h) ((r'.covers_iff w).2 h')
  · simp only [decodeOp16_ok_iff, Op16Row.covers_iff]

/-- Settles O3: closed words, decoded. -/
theorem specWordsDecode : Obligations.SpecWordsDecode := by
  unfold Obligations.SpecWordsDecode
  decide

/-- Settles O6: the three branches of the decoder of command bytes. -/
theorem commandByteSelects : Obligations.CommandByteSelects := by
  unfold Obligations.CommandByteSelects
  exact ⟨fun _ => rfl, fun _ _ _ _ => rfl, fun _ rest hr ht => decodeCmd8_ignored rest hr ht⟩

end Sys2Proof
end

section
/-! O13 to O17: runs of ticks with the clock running, the history they leave and where one arms
(40_qualifier.md). -/
namespace Sys2Proof.Machine

/-! ### A run of ticks as one state (R14) -/

/-- The state after the ticks of a list, each of them taken. -/
def State.ticks (s : State) (ts : List (Bool × Byte)) : State := ts.foldl (fun u x => u.tick x.1 x.2) s

@[simp] theorem State.ticks_nil (s : State) : s.ticks [] = s := rfl

@[simp] theorem State.ticks_cons (s : State) (x : Bool × Byte) (ts : List (Bool × Byte)) :
    s.ticks (x :: ts) = (s.tick x.1 x.2).ticks ts := rfl

@[simp] theorem State.ticks_concat (s : State) (ts : List (Bool × Byte)) (x : Bool × Byte) :
    s.ticks (ts ++ [x]) = (s.ticks ts).tick x.1 x.2 := by
  simp [State.ticks]

/-- With the clock running every tick of a list is enabled, so the run completes (R121). -/
theorem runTicks_eq_ticks {s : State} (ts : List (Bool × Byte)) (h : s.clkEn = true) :
    runTicks ts s = .next (s.ticks ts) := by
  induction ts generalizing s with
  | nil => rfl
  | cons x ts ih => rw [runTicks_cons _ _ _ h, ih (by rw [State.tick_clkEn, h]), State.ticks_cons]

theorem State.ticks_clkEn (s : State) (ts : List (Bool × Byte)) : (s.ticks ts).clkEn = s.clkEn := by
  induction ts using List.reverseRecOn with
  | nil => rfl
  | append_singleton ts x ih => rw [State.ticks_concat, State.tick_clkEn, ih]

theorem State.ticks_head (s : State) (ts : List (Bool × Byte)) :
    (s.ticks ts).head.toNat = (s.head.toNat + ts.length) % 1024 := by
  induction ts using List.reverseRecOn with
  | nil => exact (Nat.mod_eq_of_lt s.head.isLt).symm
  | append_singleton ts x ih =>
    simp [nextIndex_toNat, ih, Nat.add_assoc]

/-! ### The history (R102) -/

/-- The comparator bit of the `k`-th latest tick of a list. -/
def latestBit (ts : List (Bool × Byte)) (k : Nat) : Option Bool := (ts.reverse[k]?).map Prod.fst

@[simp] theorem latestBit_concat_zero (ts : List (Bool × Byte)) (x : Bool × Byte) :
    latestBit (ts ++ [x]) 0 = some x.1 := by
  simp [latestBit]

@[simp] theorem latestBit_concat_succ (ts : List (Bool × Byte)) (x : Bool × Byte) (k : Nat) :
    latestBit (ts ++ [x]) (k + 1) = latestBit ts k := by
  simp [latestBit]

/-- Bit `i` of the history is the comparator bit of the `i`-th latest tick, or the old history's. -/
theorem State.ticks_hist (s : State) (ts : List (Bool × Byte)) {i : Nat} (hi : i < 8) :
    (s.ticks ts).hist.getLsbD i =
      if i < ts.length then (latestBit ts i).getD false else s.hist.getLsbD (i - ts.length) := by
  induction ts using List.reverseRecOn generalizing i with
  | nil => simp
  | append_singleton ts x ih =>
    rw [State.ticks_concat, State.tick_hist]
    cases i with
    | zero => rw [histShift_getLsbD_zero]; simp
    | succ i => simp [histShift_getLsbD_succ _ _ (Nat.lt_of_succ_lt_succ hi), ih (Nat.lt_of_succ_lt hi)]

/-- Settles O13, by the law of the history after a run. -/
theorem historyAfterTicks : Obligations.HistoryAfterTicks := by
  unfold Obligations.HistoryAfterTicks
  exact fun s ts hclk => ⟨_, runTicks_eq_ticks ts hclk, fun i hi => s.ticks_hist ts hi⟩

theorem hist_eq_zero_iff (h : Byte) : h = 0#8 ↔ ∀ i < 8, h.getLsbD i = false := by
  constructor
  · rintro rfl i -
    exact BitVec.getLsbD_zero
  · intro hz
    apply BitVec.eq_of_getLsbD_eq
    simpa using hz

/-- With eight ticks or more behind it the history is all low exactly if the latest eight were. -/
theorem State.ticks_hist_eq_zero_iff (s : State) {ts : List (Bool × Byte)} (hlen : 8 ≤ ts.length) :
    (s.ticks ts).hist = 0#8 ↔ ∀ k < 8, latestBit ts k = some false := by
  rw [hist_eq_zero_iff]
  refine forall₂_congr fun k hk => ?_
  have hlt : k < ts.length := by omega
  rw [s.ticks_hist ts hk, if_pos hlt]
  simp [latestBit, hlt]

theorem latestBit_eq_low_iff {ts : List (Bool × Byte)} {n : Nat} (hlen : ts.length = n) :
    (∀ k < n, latestBit ts k = some false) ↔ ∀ x ∈ ts, x.1 = false := by
  constructor
  · intro h x hx
    obtain ⟨k, hk, rfl⟩ := List.getElem_of_mem (List.mem_reverse.2 hx)
    have hlow := h k (by rwa [List.length_reverse, hlen] at hk)
    rwa [latestBit, List.getElem?_eq_getElem hk, Option.map_some, Option.some_inj] at hlow
  · intro h k hk
    have hk' : k < ts.reverse.length := by rwa [List.length_reverse, hlen]
    rw [latestBit, List.getElem?_eq_getElem hk', Option.map_some,
      h _ (List.mem_reverse.1 (List.getElem_mem hk'))]

/-! ### Arming (R100, R125) -/

/-- Inversion of TICK (R121). -/
theorem eq_tick_of_exec {s t : State} {c : Bool} {v : Byte} (h : exec (.tick c v) s = .next t) :
    t = s.tick c v := by
  cases exec_cases h with
  | tick => rfl
  | read hi => cases hi

/-- With the clock running a tick arms exactly from `Idle`, on a high after eight lows. -/
theorem armsAt_iff {s : State} (c : Bool) (v : Byte) (h : s.clkEn = true) :
    (∃ t, ArmsAt s c v t) ↔ s.st = .idle ∧ s.hist = 0#8 ∧ c = true := by
  constructor
  · rintro ⟨t, ht, hidle, harm⟩
    obtain rfl := eq_tick_of_exec ht
    refine ⟨hidle, ?_⟩
    by_contra hq
    exact harm (by rw [State.tick_st_of_idle c v hidle, if_neg hq])
  · rintro ⟨hidle, hq⟩
    refine ⟨_, exec_tick c v (.inl h), hidle, ?_⟩
    rw [State.tick_st_of_idle c v hidle, if_pos hq]
    exact Trigger.noConfusion

/-- Settles O14: the tick arms by the law of arming, with the history that of the latest eight ticks. -/
theorem armsExactlyAfterEightLows : Obligations.ArmsExactlyAfterEightLows := by
  unfold Obligations.ArmsExactlyAfterEightLows
  intro s u ts c v hclk hlen hrun hidle
  rw [runTicks_eq_ticks ts hclk] at hrun
  cases hrun
  rw [armsAt_iff c v (by rw [State.ticks_clkEn, hclk]), s.ticks_hist_eq_zero_iff hlen]
  exact ⟨fun ⟨_, hlow, hc⟩ => ⟨hc, hlow⟩, fun ⟨hc, hlow⟩ => ⟨hidle, hlow, hc⟩⟩

/-- Low ticks leave an `Idle` trigger `Idle`. -/
theorem State.ticks_st_of_low {s : State} {ts : List (Bool × Byte)} (h : s.st = .idle)
    (hlow : ∀ x ∈ ts, x.1 = false) : (s.ticks ts).st = .idle := by
  induction ts generalizing s with
  | nil => exact h
  | cons x ts ih =>
    obtain ⟨hx, hlow⟩ := List.forall_mem_cons.1 hlow
    refine ih ?_ hlow
    rw [State.tick_st_of_idle _ _ h, hx, if_neg (by simp)]

/-- A high tick after low ones from `Idle` arms exactly if the history behind it is all low. -/
theorem State.ticks_low_high_st {s : State} {ts : List (Bool × Byte)} (v : Byte) (h : s.st = .idle)
    (hlow : ∀ x ∈ ts, x.1 = false) :
    (s.ticks (ts ++ [(true, v)])).st =
      if (s.ticks ts).hist = 0#8 then .armed (stopIndexFor (s.ticks ts).head) else .idle := by
  rw [State.ticks_concat, State.tick_st_of_idle _ _ (State.ticks_st_of_low h hlow)]
  simp

/-- Fewer than eight ticks do not shift a high bit out of the history. -/
theorem State.ticks_hist_ne_zero {s : State} {ts : List (Bool × Byte)} (hlen : ts.length < 8)
    (h : s.hist.getLsbD 0 = true) : (s.ticks ts).hist ≠ 0#8 := by
  intro hz
  have hbit := s.ticks_hist ts hlen
  rw [hz, if_neg (Nat.lt_irrefl _), Nat.sub_self, h, BitVec.getLsbD_zero] at hbit
  cases hbit

/-- Settles O15: a high bit 0 of `HIST_RESET` stays in the history for seven ticks; a low one is shifted
to position 7 by seven lows, and the high behind them arms. -/
theorem debounceFromReset : Obligations.DebounceFromReset := by
  unfold Obligations.DebounceFromReset
  intro h d
  constructor
  · intro hbit ts v hlen hlow
    refine ⟨_, runTicks_eq_ticks _ rfl, ?_⟩
    rw [State.ticks_low_high_st v rfl hlow, if_neg (State.ticks_hist_ne_zero hlen hbit)]
  · intro hall
    obtain ⟨u, hrun, hu⟩ := hall (List.replicate 7 (false, 0#8)) 0#8 (by simp) (by simp)
    rw [runTicks_eq_ticks _ rfl] at hrun
    cases hrun
    by_contra hbit
    rw [State.ticks_low_high_st _ rfl (by simp), if_pos] at hu
    · cases hu
    · rw [hist_eq_zero_iff]
      intro i hi
      rw [State.ticks_hist _ _ hi, List.length_replicate]
      by_cases h7 : i < 7
      · rw [if_pos h7, (latestBit_eq_low_iff List.length_replicate).2 (by simp) i h7, Option.getD_some]
      · obtain rfl : i = 7 := by omega
        rw [if_neg h7]
        exact Bool.eq_false_iff.2 hbit

/-- Settles O16: the lows keep the trigger `Idle` and clear the history, and the high arms half a buffer
ahead of where `head` then is. -/
theorem eightLowsThenHighArms : Obligations.EightLowsThenHighArms := by
  unfold Obligations.EightLowsThenHighArms
  intro s ts v hclk hidle hlen hlow
  have hz : (s.ticks ts).hist = 0#8 := by
    rw [s.ticks_hist_eq_zero_iff hlen.ge, latestBit_eq_low_iff hlen]
    exact hlow
  refine ⟨_, runTicks_eq_ticks _ hclk, ?_⟩
  rw [State.ticks_low_high_st v hidle hlow, if_pos hz, stopIndexFor_eq_ofNat, State.ticks_head, hlen,
    Nat.mod_add_mod]

/-- Settles O17: a high bit leaves the history at the ninth tick, when it holds the eight ticks since. -/
theorem noRetriggerOnLevel : Obligations.NoRetriggerOnLevel := by
  unfold Obligations.NoRetriggerOnLevel
  intro s t v ts hclk ht
  obtain rfl := eq_tick_of_exec ht
  have hclk' : (s.tick true v).clkEn = true := by rw [State.tick_clkEn, hclk]
  have hclk'' : ((s.tick true v).ticks ts).clkEn = true := by rw [State.ticks_clkEn, hclk']
  refine ⟨_, runTicks_eq_ticks ts hclk', fun hlen c v' w harm => ?_, fun hlen c v' w harm => ?_⟩
  · obtain ⟨-, hz, -⟩ := (armsAt_iff c v' hclk'').1 ⟨w, harm⟩
    refine State.ticks_hist_ne_zero hlen ?_ hz
    rw [State.tick_hist, histShift_getLsbD_zero]
  · obtain ⟨-, hz, hc⟩ := (armsAt_iff c v' hclk'').1 ⟨w, harm⟩
    rw [State.ticks_hist_eq_zero_iff _ hlen.ge, latestBit_eq_low_iff hlen] at hz
    exact ⟨hc, hz⟩

end Sys2Proof.Machine
end

section
/-! O24 to O28, O51 and O52: from the arm tick to the freeze and past it, and the window that ticks leave
(41_capture_tick.md). -/
namespace Sys2Proof.Machine

/-! ### From the arm tick to the freeze (R124, R125) -/

/-- Until `head` has come to the stop index, the trigger stays armed. -/
theorem State.ticks_st_of_armed {s : State} {p : Index} {d : Nat} {ts : List (Bool × Byte)}
    (h : s.st = .armed p) (hp : p.toNat = (s.head.toNat + d) % 1024) (hd : d < 1024)
    (hlen : ts.length ≤ d) : (s.ticks ts).st = .armed p := by
  induction ts using List.reverseRecOn with
  | nil => exact h
  | append_singleton ts x ih =>
    rw [List.length_append, List.length_singleton] at hlen
    have hne : (s.ticks ts).head ≠ p := by
      rw [← BitVec.toNat_inj.ne, State.ticks_head, hp]
      omega
    rw [State.ticks_concat, State.tick_st_of_armed _ _ (ih (by omega)), if_neg hne]

theorem ArmsAt.st_eq {s t : State} {c : Bool} {v : Byte} (hclk : s.clkEn = true)
    (h : ArmsAt s c v t) : t.st = .armed (stopIndexFor s.head) := by
  obtain ⟨hidle, hq⟩ := (armsAt_iff c v hclk).1 ⟨t, h⟩
  rw [eq_tick_of_exec h.1, State.tick_st_of_idle c v hidle, if_pos hq]

section AfterArm
variable {s t : State} {c : Bool} {v : Byte} {ts : List (Bool × Byte)}

/-- At the arm tick `head` is 511 ticks before the stop index. -/
theorem ArmsAt.head_stop (h : ArmsAt s c v t) :
    t.head.toNat = (s.head.toNat + 1) % 1024 ∧
      (stopIndexFor s.head).toNat = (t.head.toNat + 511) % 1024 := by
  have hhead : t.head.toNat = (s.head.toNat + 1) % 1024 := by
    rw [eq_tick_of_exec h.1, State.tick_head, nextIndex_toNat]
  refine ⟨hhead, ?_⟩
  rw [stopIndexFor_toNat, hhead, Nat.mod_add_mod]

theorem ArmsAt.clkEn (hclk : s.clkEn = true) (h : ArmsAt s c v t) : t.clkEn = true := by
  rw [eq_tick_of_exec h.1, State.tick_clkEn, hclk]

theorem ArmsAt.ticks_st_armed (hclk : s.clkEn = true) (h : ArmsAt s c v t) (hlen : ts.length < 512) :
    (t.ticks ts).st = .armed (stopIndexFor s.head) :=
  State.ticks_st_of_armed (h.st_eq hclk) h.head_stop.2 (by decide) (Nat.le_of_lt_succ hlen)

theorem ArmsAt.ticks_st_frozen (hclk : s.clkEn = true) (h : ArmsAt s c v t) (hlen : ts.length = 512) :
    (t.ticks ts).st = .frozen := by
  obtain rfl | ⟨us, x, rfl⟩ := ts.eq_nil_or_concat'
  · cases hlen
  have hus : us.length = 511 := by simpa using hlen
  have hstop : (t.ticks us).head = stopIndexFor s.head := by
    rw [← BitVec.toNat_inj, State.ticks_head, hus, h.head_stop.2]
  rw [State.ticks_concat, State.tick_st_of_armed _ _ (h.ticks_st_armed hclk (by omega)), if_pos hstop]

theorem ArmsAt.ticks_st_idle (hclk : s.clkEn = true) (h : ArmsAt s c v t) (hlen : ts.length = 513) :
    (t.ticks ts).st = .idle := by
  obtain rfl | ⟨us, x, rfl⟩ := ts.eq_nil_or_concat'
  · cases hlen
  have hus : us.length = 512 := by simpa using hlen
  rw [State.ticks_concat, State.tick_st_of_frozen _ _ (h.ticks_st_frozen hclk hus)]

end AfterArm

/-- Settles O24: `head` needs 511 ticks to the stop index, and the tick that finds it there freezes. -/
theorem armToFreezeDistance : Obligations.ArmToFreezeDistance := by
  unfold Obligations.ArmToFreezeDistance
  intro s t c v ts hclk harm _
  refine ⟨_, runTicks_eq_ticks ts (harm.clkEn hclk), fun hlen => ?_, fun hlen => ⟨?_, ?_⟩⟩
  · rw [harm.ticks_st_armed hclk hlen, stopIndexFor_eq_ofNat]
  · exact harm.ticks_st_frozen hclk hlen
  · rw [State.ticks_head, harm.head_stop.1, hlen, Nat.mod_add_mod]

/-- Settles O26: for 513 ticks the trigger is armed and then frozen, so nothing arms; after them it is
`Idle`, and the law of arming holds of the history those ticks left. -/
theorem triggersAtLeast514Apart : Obligations.TriggersAtLeast514Apart := by
  unfold Obligations.TriggersAtLeast514Apart
  intro s t c v ts hclk harm
  have hclk' : (t.ticks ts).clkEn = true := by rw [State.ticks_clkEn, harm.clkEn hclk]
  refine ⟨_, runTicks_eq_ticks ts (harm.clkEn hclk), fun hlen c' v' w harm' => ?_, fun hlen => ?_⟩
  · obtain ⟨hidle, -⟩ := (armsAt_iff c' v' hclk').1 ⟨w, harm'⟩
    obtain hlt | heq := Nat.lt_succ_iff_lt_or_eq.1 hlen
    · exact Trigger.noConfusion (hidle.symm.trans (harm.ticks_st_armed hclk hlt))
    · exact Trigger.noConfusion (hidle.symm.trans (harm.ticks_st_frozen hclk heq))
  · have hidle := harm.ticks_st_idle hclk hlen
    refine ⟨hidle, fun c' v' => ?_⟩
    rw [armsAt_iff c' v' hclk', t.ticks_hist_eq_zero_iff (by omega)]
    exact ⟨fun ⟨_, hlow, hc⟩ => ⟨hc, hlow⟩, fun ⟨hc, hlow⟩ => ⟨hidle, hlow, hc⟩⟩

/-- `Frozen` is entered only from `Armed` at `head` (R124). -/
theorem State.st_eq_of_tick_frozen {s : State} {c : Bool} {v : Byte} (hs : s.st ≠ .frozen)
    (h : (s.tick c v).st = .frozen) : s.st = .armed s.head := by
  cases hst : s.st with
  | frozen => exact absurd hst hs
  | idle =>
    rw [State.tick_st_of_idle c v hst] at h
    split_ifs at h
  | armed p =>
    rw [State.tick_st_of_armed c v hst] at h
    split_ifs at h with hp
    rw [hp]

/-- Settles O25: the law of a tick in `Armed`, and then the law of a tick in `Frozen`. -/
theorem frozenLastsOneTick : Obligations.FrozenLastsOneTick := by
  unfold Obligations.FrozenLastsOneTick
  intro s t c v _ hs ht hfrozen
  obtain rfl := eq_tick_of_exec ht
  refine ⟨State.st_eq_of_tick_frozen hs hfrozen, fun c' v' u hu => ?_⟩
  rw [eq_tick_of_exec hu, State.tick_st_of_frozen c' v' hfrozen]

/-- Settles O51: the restart leaves `st` and starts the clock, so that every tick is enabled. -/
theorem firstTickAfterDumpRearms : Obligations.FirstTickAfterDumpRearms := by
  unfold Obligations.FirstTickAfterDumpRearms
  intro s hc hst
  exact ⟨restartStep s, exec_cmdR_rStart hc, hst,
    fun c v => ⟨_, exec_tick c v (.inl rfl), State.tick_st_of_frozen c v hst⟩⟩

/-! ### The window (R122, R126, R132) -/

/-- A tick moves the window on by one: its sample is the newest, and the oldest cell is gone. -/
theorem State.tick_windowCell (s : State) (c : Bool) (v : Byte) {j : Nat} (hj : j < 1024) :
    (s.tick c v).windowCell j = if j = 1023 then some v else s.windowCell (j + 1) := by
  have hlt : s.head.toNat < 1024 := s.head.isLt
  have haddr : ((s.tick c v).head.toNat + j) % 1024 = (s.head.toNat + (j + 1)) % 1024 := by
    rw [State.tick_head, nextIndex_toNat]
    omega
  have hnew : (s.head.toNat + (j + 1)) % 1024 = s.head.toNat ↔ j = 1023 := by omega
  simp only [State.windowCell, Config.capacity, haddr, State.tick_buf, Memory.read_write, hnew]

/-- The window after a run: the latest samples, and before them what stood further on. -/
theorem State.ticks_windowCell (s : State) (ts : List (Bool × Byte)) {j : Nat} (hj : j < 1024) :
    (s.ticks ts).windowCell j =
      if 1024 ≤ ts.length + j then (ts[ts.length + j - 1024]?).map Prod.snd
      else s.windowCell (ts.length + j) := by
  induction ts using List.reverseRecOn generalizing j with
  | nil => rw [if_neg (by simpa using hj)]; simp
  | append_singleton ts x ih =>
    rw [State.ticks_concat, State.tick_windowCell _ _ _ hj, List.length_append, List.length_singleton]
    by_cases h : j = 1023
    · subst h
      simp
    · have hj' : j + 1 < 1024 := by omega
      have hsum : ts.length + 1 + j = ts.length + (j + 1) := by omega
      rw [if_neg h, ih hj', hsum]
      split_ifs with hnew
      · rw [List.getElem?_append_left (by omega)]
      · rfl

/-- Settles O27, by the law of the window after a run. -/
theorem windowAfterTicks : Obligations.WindowAfterTicks := by
  unfold Obligations.WindowAfterTicks
  exact fun s ts hclk => ⟨_, runTicks_eq_ticks ts hclk, s.ticks_head ts,
    fun j hj => s.ticks_windowCell ts hj⟩

/-- Settles O28: the arm tick and the 512 after it are a run of 513 ticks, whose window is known. -/
theorem frozenWindowIsCentred : Obligations.FrozenWindowIsCentred := by
  unfold Obligations.FrozenWindowIsCentred
  intro s t c v ts hclk harm hlen
  have hwin : ∀ j < 1024, (t.ticks ts).windowCell j =
      if 511 ≤ j then (((c, v) :: ts)[j - 511]?).map Prod.snd else s.windowCell (j + 513) := by
    intro j hj
    have hrun := s.ticks_windowCell ((c, v) :: ts) hj
    rw [State.ticks_cons, ← eq_tick_of_exec harm.1, List.length_cons, hlen] at hrun
    rw [hrun]
    by_cases hnew : 511 ≤ j
    · rw [if_pos (by omega), if_pos hnew, show 512 + 1 + j - 1024 = j - 511 by omega]
    · rw [if_neg (by omega), if_neg hnew, Nat.add_comm]
  refine ⟨_, runTicks_eq_ticks ts (harm.clkEn hclk), harm.ticks_st_frozen hclk hlen, ?_, fun k hk => ?_,
    fun k hk => ?_⟩
  · rw [hwin _ (by decide)]
    rfl
  · rw [hwin _ (by omega), if_pos (by omega), show 512 + k - 511 = k + 1 by omega,
      List.getElem?_cons_succ]
  · rw [hwin _ (by omega), if_neg (by omega)]

/-- Settles O52: a tick in `Frozen` clears it, marks what the poll had seen, and moves the window on. -/
theorem freezeRaceShiftsWindow : Obligations.FreezeRaceShiftsWindow := by
  unfold Obligations.FreezeRaceShiftsWindow
  intro s c v hen hst hobs
  refine ⟨_, exec_tick c v hen, State.tick_st_of_frozen c v hst, ?_, ?_, fun j hj => ?_⟩
  · simp [State.tick_freezeLost_eq, hst, hobs]
  · rw [State.tick_windowCell _ _ _ (by decide), if_pos rfl]
  · rw [State.tick_windowCell _ _ _ (by omega), if_neg hj.ne]

end Sys2Proof.Machine
end

section
/-! O9, O10, O40, O43, O45, O46, O48 and O53 to O57: the register view, the serial commands by position,
and whose step a step is (10_state.md, 42_consumer_ops.md, 43_command_processor.md, 60_exceptions.md). -/
namespace Sys2Proof.Machine

/-! ### The register view (R25, R32) -/

theorem State.status_resetWith (h d : Byte) : (State.resetWith h d).status = 0b00000100#8 := by
  apply BitVec.eq_of_toNat_eq
  rw [State.status_toNat]
  rfl

/-- Settles O9: each register of the view is a field of the reset state, STATUS the byte of its flags. -/
theorem registerViewAtReset : Obligations.RegisterViewAtReset := by
  unfold Obligations.RegisterViewAtReset
  refine fun h d => ⟨?_, rfl, rfl, rfl, rfl, rfl⟩
  rw [State.regBits, State.status_resetWith]
  rfl

/-- Settles O10: the four codes, each read by its own branch. -/
theorem triggerCodeRoundTrip : Obligations.TriggerCodeRoundTrip := by
  unfold Obligations.TriggerCodeRoundTrip
  exact ⟨rfl, fun _ => rfl, rfl, fun _ => rfl, fun _ => rfl, fun _ => rfl, fun _ => rfl⟩

/-! ### CMD_T by position (R180, R181) -/

theorem exec_cmdT_waitCmd {s : State} (d0 d1 d2 : Byte) (hc : s.cons = .waitCmd) :
    exec (.cmdT d0 d1 d2) s = .next (s.setCons .tDig0) := by
  rw [exec, execCmdT, hc]

theorem exec_cmdT_tDig0 {s : State} (d0 d1 d2 : Byte) (hc : s.cons = .tDig0) :
    exec (.cmdT d0 d1 d2) s = .next (s.setCons (.tDig1 d0)) := by
  rw [exec, execCmdT, hc]

theorem exec_cmdT_tDig1 {s : State} {a0 : Byte} (d0 d1 d2 : Byte) (hc : s.cons = .tDig1 a0) :
    exec (.cmdT d0 d1 d2) s = .next (s.setCons (.tDig2 a0 d1)) := by
  rw [exec, execCmdT, hc]

theorem exec_cmdT_tDig2 {s : State} {a0 a1 : Byte} (d0 d1 d2 : Byte) (hc : s.cons = .tDig2 a0 a1) :
    exec (.cmdT d0 d1 d2) s = .next (levelStep a0 a1 d2 s) := by
  rw [exec, execCmdT, hc]

theorem exec_cmdR_waitCmd {s : State} (hc : s.cons = .waitCmd) :
    exec .cmdR s = .next (s.setCons .rPoll) := by
  rw [exec, execCmdR, hc]

theorem State.setCons_self {s : State} {c : Cons} (hc : s.cons = c) : s.setCons c = s := by
  rw [← hc, State.setCons]

theorem exec_cmdIgn_waitCmd {s : State} (b : Byte) (hc : s.cons = .waitCmd) :
    exec (.cmdIgn b) s = .next s := by
  rw [exec, execCmdIgn, hc, State.setCons_self hc]

/-- Settles O40, by each command's meaning at `WaitCmd`. -/
theorem commandsStartAtWaitCmd : Obligations.CommandsStartAtWaitCmd := by
  unfold Obligations.CommandsStartAtWaitCmd
  exact fun s hc => ⟨exec_cmdR_waitCmd hc, fun d0 d1 d2 => exec_cmdT_waitCmd d0 d1 d2 hc,
    fun b => exec_cmdIgn_waitCmd b hc⟩

/-- Settles O45, by CMD_T's meaning at the first two digits. -/
theorem digitStepsCollect : Obligations.DigitStepsCollect := by
  unfold Obligations.DigitStepsCollect
  exact fun s d0 d1 d2 => ⟨exec_cmdT_tDig0 d0 d1 d2, fun a0 => exec_cmdT_tDig1 d0 d1 d2⟩

/-- The number three digits write, whatever its size (R72). -/
def decimalValue (d0 d1 d2 : Byte) : Nat :=
  100 * (d0.toNat - 0x30) + 10 * (d1.toNat - 0x30) + (d2.toNat - 0x30)

theorem isDigit_iff (b : Byte) : isDigit b = true ↔ 0x30 ≤ b.toNat ∧ b.toNat ≤ 0x39 := by
  simp [isDigit]

/-- The level has a stated value for three digits of value at most 255, and for nothing else (R181). -/
theorem levelValue_eq (d0 d1 d2 : Byte) :
    levelValue d0 d1 d2 =
      if (∀ x ∈ [d0, d1, d2], 0x30 ≤ x.toNat ∧ x.toNat ≤ 0x39) ∧ decimalValue d0 d1 d2 ≤ 255 then
        some (BitVec.ofNat 8 (decimalValue d0 d1 d2))
      else none := by
  have hd : (isDigit d0 && isDigit d1 && isDigit d2) = true ↔
      ∀ x ∈ [d0, d1, d2], 0x30 ≤ x.toNat ∧ x.toNat ≤ 0x39 := by
    simp [isDigit_iff, and_assoc]
  rw [levelValue]
  simp only [hd, ite_and]
  rfl

theorem levelStep_of_stated {d0 d1 d2 : Byte} (s : State)
    (hd : ∀ x ∈ [d0, d1, d2], 0x30 ≤ x.toNat ∧ x.toNat ≤ 0x39) (hv : decimalValue d0 d1 d2 ≤ 255) :
    levelStep d0 d1 d2 s =
      (s.setDuty (BitVec.ofNat 8 (decimalValue d0 d1 d2))).setCons .waitCmd := by
  rw [levelStep, State.parseLevel, levelValue_eq, if_pos ⟨hd, hv⟩]

theorem levelStep_of_not_stated {d0 d1 d2 : Byte} (s : State)
    (h : ¬((∀ x ∈ [d0, d1, d2], 0x30 ≤ x.toNat ∧ x.toNat ≤ 0x39) ∧ decimalValue d0 d1 d2 ≤ 255)) :
    levelStep d0 d1 d2 s = (s.nextDraw.setDuty (Config.freeByte s.draws)).setCons .waitCmd := by
  rw [levelStep, State.parseLevel, levelValue_eq, if_neg h, State.drawByte]

/-- Settles O46: the level step, with a stated value and without one. -/
theorem levelStepWritesDuty : Obligations.LevelStepWritesDuty := by
  unfold Obligations.LevelStepWritesDuty
  intro s a0 a1 d0 d1 b hc
  rw [exec_cmdT_tDig2 d0 d1 b hc]
  refine ⟨fun hd hv => ?_, fun hopen => ?_⟩
  · rw [levelStep_of_stated s hd hv]
    rfl
  · rw [levelStep_of_not_stated]
    · exact ⟨_, _, rfl⟩
    · rintro ⟨hd, hv⟩
      obtain ⟨x, hx, hout⟩ | hgt := hopen
      · have := hd x hx
        omega
      · exact absurd hv (Nat.not_le.2 hgt)

/-! ### CMD_R at `RSend(j)` (R176) -/

theorem exec_cmdR_rSend {s : State} {j : Index} (hc : s.cons = .rSend j) :
    exec .cmdR s = .next (sendStep j s) := by
  rw [exec, execCmdR, hc]

theorem sendStep_of_not_ready {s : State} (j : Index) (h : s.txReady = false) : sendStep j s = s := by
  rw [sendStep, h, if_neg Bool.false_ne_true]

theorem sendStep_of_ready {s : State} {j : Index} {r : Byte × State} (h : s.txReady = true)
    (hr : s.readChron j = r) : sendStep j s = (r.2.send r.1).setCons (afterSend j) := by
  rw [sendStep, if_pos h, hr]

theorem afterSend_eq (j : Index) :
    afterSend j = if j.toNat < 1023 then .rSend (BitVec.ofNat 10 (j.toNat + 1)) else .rStart := by
  have hj : j + 1#10 = BitVec.ofNat 10 (j.toNat + 1) := by
    rw [BitVec.ofNat_add, BitVec.ofNat_toNat, BitVec.setWidth_eq]
  rw [afterSend, hj]
  rfl

/-- Settles O43: the send step, held, with the byte of a written cell, and with a free one. -/
theorem sendStepSendsWindowByte : Obligations.SendStepSendsWindowByte := by
  unfold Obligations.SendStepSendsWindowByte
  intro s j hc
  rw [exec_cmdR_rSend hc, ← afterSend_eq]
  refine ⟨fun hn => ?_, fun hready => ⟨fun v hv => ?_, fun hv => ?_⟩⟩
  · rw [sendStep_of_not_ready j hn]
  · rw [sendStep_of_ready hready (State.readChron_written hv)]
    rfl
  · rw [sendStep_of_ready hready (State.readChron_unwritten hv)]
    exact ⟨_, _, rfl⟩

/-! ### The reference consumer's turn by position (R170, R171) -/

/-- A turn at `WaitCmd` runs the command its first byte selects. -/
theorem turnStep_waitCmd {s : State} {b : Byte} {bs : List Byte} (hc : s.cons = .waitCmd)
    (hr : s.rx = b :: bs) : turnStep .consumer s = exec (commandOf b bs) (s.setRx bs) := by
  rw [turnStep, fetchTurn, fetchConsumer, hc, hr]
  rfl

theorem turnStep_tDig0 {s : State} {b : Byte} {bs : List Byte} (hc : s.cons = .tDig0)
    (hr : s.rx = b :: bs) :
    turnStep .consumer s = .next ((s.setRx bs).setCons (.tDig1 b)) := by
  rw [turnStep, fetchTurn, fetchConsumer, hc, hr]
  exact exec_cmdT_tDig0 _ _ _ hc

theorem turnStep_tDig1 {s : State} {a0 b : Byte} {bs : List Byte} (hc : s.cons = .tDig1 a0)
    (hr : s.rx = b :: bs) :
    turnStep .consumer s = .next ((s.setRx bs).setCons (.tDig2 a0 b)) := by
  rw [turnStep, fetchTurn, fetchConsumer, hc, hr]
  exact exec_cmdT_tDig1 _ _ _ hc

theorem turnStep_tDig2 {s : State} {a0 a1 b : Byte} {bs : List Byte} (hc : s.cons = .tDig2 a0 a1)
    (hr : s.rx = b :: bs) : turnStep .consumer s = .next (levelStep a0 a1 b (s.setRx bs)) := by
  rw [turnStep, fetchTurn, fetchConsumer, hc, hr]
  exact exec_cmdT_tDig2 _ _ _ hc

/-- The positions at which the consumer awaits no byte: those inside `'r'` (R174 to R177). -/
def Cons.inDump (c : Cons) : Prop := c = .rPoll ∨ c = .rStop ∨ (∃ j, c = .rSend j) ∨ c = .rStart

theorem turnStep_inDump {s : State} (hc : s.cons.inDump) : turnStep .consumer s = exec .cmdR s := by
  obtain hc | hc | ⟨j, hc⟩ | hc := hc <;> rw [turnStep, fetchTurn, fetchConsumer, hc] <;> rfl

/-- The positions at which the consumer awaits a byte (R173, R180). -/
def Cons.awaitsByte (c : Cons) : Prop :=
  c = .waitCmd ∨ c = .tDig0 ∨ (∃ a, c = .tDig1 a) ∨ ∃ a b, c = .tDig2 a b

theorem turnStep_held {s : State} (hr : s.rx = []) (hc : s.cons.awaitsByte) :
    turnStep .consumer s = .next s := by
  obtain hc | hc | ⟨a, hc⟩ | ⟨a, b, hc⟩ := hc <;> rw [turnStep, fetchTurn, fetchConsumer, hc, hr] <;> rfl

/-- A command that decodes whole is the one its first byte selects (R71). -/
theorem commandOf_of_decodeCmd8 {b : Byte} {bs rest : List Byte} {i : Instr}
    (h : decodeCmd8 (b :: bs) = .ok (i, rest)) : commandOf b bs = i := by
  by_cases hr : b = Config.cmdDump
  · subst hr
    cases h
    rfl
  by_cases ht : b = Config.cmdTrig
  · subst ht
    match bs with
    | d0 :: d1 :: d2 :: _ =>
      cases h
      rfl
  · rw [decodeCmd8_ignored bs hr ht] at h
    cases h
    rw [commandOf, if_neg hr, if_neg ht]

/-- Settles O54: the turn chosen is the consumer's, and it goes by position and by the bytes waiting. -/
theorem stepRunsCommand : Obligations.StepRunsCommand := by
  unfold Obligations.StepRunsCommand
  intro s ts hf hs
  rw [step_of_sched_cons hf hs]
  refine ⟨fun hc i rest hd => ?_, fun b bs hr => ⟨fun hc d1 d2 => ?_, fun a0 hc d2 => ?_,
    fun a0 a1 hc => ?_⟩, fun hr hc => ?_, fun hc => ?_⟩
  · cases hr : s.rx with
    | nil => rw [hr] at hd; cases hd
    | cons b bs =>
      rw [hr] at hd
      rw [turnStep_waitCmd (s := s.setSched ts) hc hr, commandOf_of_decodeCmd8 hd]
      rfl
  · rw [turnStep_tDig0 (s := s.setSched ts) hc hr]
    exact (exec_cmdT_tDig0 (s := (s.setSched ts).setRx bs) _ _ _ hc).symm
  · rw [turnStep_tDig1 (s := s.setSched ts) hc hr]
    exact (exec_cmdT_tDig1 (s := (s.setSched ts).setRx bs) _ _ _ hc).symm
  · rw [turnStep_tDig2 (s := s.setSched ts) hc hr]
    exact (exec_cmdT_tDig2 (s := (s.setSched ts).setRx bs) _ _ _ hc).symm
  · exact turnStep_held (s := s.setSched ts) hr hc
  · exact turnStep_inDump (s := s.setSched ts) hc

/-! ### A whole `'t'` (R71, R180) -/

theorem core_run_consumer {s t : State} {ts : List Turn} (k : Nat) (hf : s.form = .reference)
    (hs : s.sched = .consumer :: ts) (ht : turnStep .consumer (s.setSched ts) = .next t) :
    Sys2Proof.core.run (k + 1) s = Sys2Proof.core.run k t := by
  have h : Sys2Proof.core.step s = .next t := (step_of_sched_cons hf hs).trans ht
  simp only [Host.Core.run, h]

/-- Settles O48: command decode and the three digit steps, one after another. -/
theorem levelCommandSetsDuty : Obligations.LevelCommandSetsDuty := by
  unfold Obligations.LevelCommandSetsDuty
  intro s d0 d1 d2 bs ts hf hc hr hs hd hv
  calc Sys2Proof.core.run 4 s
    _ = Sys2Proof.core.run 3 { s with
          cons := .tDig0, rx := d0 :: d1 :: d2 :: bs,
          sched := .consumer :: .consumer :: .consumer :: ts } :=
      core_run_consumer 3 hf hs (turnStep_consumer_waitCmd (s := s.setSched (_ :: _ :: _ :: ts)) hc hr)
    _ = Sys2Proof.core.run 2 { s with
          cons := .tDig1 d0, rx := d1 :: d2 :: bs, sched := .consumer :: .consumer :: ts } :=
      core_run_consumer 2 hf rfl (turnStep_tDig0 rfl rfl)
    _ = Sys2Proof.core.run 1 { s with
          cons := .tDig2 d0 d1, rx := d2 :: bs, sched := .consumer :: ts } :=
      core_run_consumer 1 hf rfl (turnStep_tDig1 rfl rfl)
    _ = .next (levelStep d0 d1 d2 { s with cons := .tDig2 d0 d1, rx := bs, sched := ts }) :=
      core_run_consumer 0 hf rfl (turnStep_tDig2 rfl rfl)
    _ = .next (({ s with
          rx := bs, sched := ts,
          duty := BitVec.ofNat 8 (decimalValue d0 d1 d2) } : State).setCons .waitCmd) := by
      rw [levelStep_of_stated _ hd hv]
      rfl
    _ = _ := congrArg Host.Outcome.next (State.setCons_self hc)

/-! ### The other agents' turns (R121, R171, R172, R206) -/

theorem turnStep_tick {s : State} (c : Bool) (v : Byte) (h : s.clkEn = true ∨ 0 < s.late) :
    turnStep (.tick c v) s = exec (.tick c v) s := by
  rw [turnStep, fetchTurn, if_pos (s.tickEnabled_iff.2 h), runFetched]

theorem turnStep_tick_passes {s : State} (c : Bool) (v : Byte) (hc : s.clkEn = false)
    (hl : s.late = 0) : turnStep (.tick c v) s = .next s := by
  rw [turnStep, fetchTurn, State.tickEnabled_eq_false hc hl, if_neg Bool.false_ne_true, runFetched]

theorem State.setSched_self {s : State} {ts : List Turn} (hs : s.sched = ts) : s.setSched ts = s := by
  rw [← hs, State.setSched]

/-- Settles O55: the turn chosen by its agent, and a free turn as the same turn chosen. -/
theorem stepTakesTurns : Obligations.StepTakesTurns := by
  unfold Obligations.StepTakesTurns
  intro s hf
  refine ⟨fun ts c v hs => ⟨fun h => ?_, fun hc hl => ?_⟩, fun ts b hs => ?_, fun ts hs => ?_,
    fun hs => ⟨Config.freeTurn s.draws, ?_⟩⟩
  · rw [step_of_sched_cons hf hs]
    exact turnStep_tick (s := s.setSched ts) c v h
  · rw [step_of_sched_cons hf hs]
    exact turnStep_tick_passes (s := s.setSched ts) c v hc hl
  · rw [step_of_sched_cons hf hs]
    rfl
  · rw [step_of_sched_cons hf hs]
    rfl
  · rw [step_of_sched_cons (s := { s with sched := [_], draws := _ }) hf rfl, step_reference hf,
      State.takeTurn, hs]
    exact congrArg (turnStep _) (State.setSched_self (s := s.nextDraw) hs).symm

/-- Settles O56: the step is a turn, and every turn answers a next state. -/
theorem referenceConsumerNeverStops : Obligations.ReferenceConsumerNeverStops := by
  unfold Obligations.ReferenceConsumerNeverStops
  intro s hf
  obtain ⟨t, ht, -⟩ := turnStep_next s.takeTurn.1 s.takeTurn.2
  exact ⟨t, (step_reference hf).trans ht⟩

/-! ### The direct consumer, and where a run stops (R158, R78, R201) -/

theorem step_runEnded {s : State} (hf : s.form = .direct) (hr : s.refused = false)
    (hw : s.prog[s.dpc]? = none) : step s = .fault .runEnded := by
  simp [step, fetch, hf, fetchDirect, hr, hw, runFetched]

/-- Settles O53: the word at `dpc`, or none. -/
theorem stepRunsInterfaceWord : Obligations.StepRunsInterfaceWord := by
  unfold Obligations.StepRunsInterfaceWord
  exact fun s hf hr => ⟨fun w i hw hd => step_word hf hr hw hd,
    fun hend => step_runEnded hf hr (List.getElem?_eq_none hend.ge)⟩

/-- Of the interface words only TICK stops, where it is not enabled (R121). -/
theorem exec_op16_stops (i : Instr) (s : State) (hi : i.format = .op16) :
    (∃ t, exec i s = .next t) ∨
    ∃ c v, i = .tick c v ∧ s.tickEnabled = false ∧ exec i s = .fault .tickNotEnabled := by
  cases i with
  | tick c v =>
    cases h : s.tickEnabled with
    | true => exact .inl ⟨_, execTick_enabled c v h⟩
    | false => exact .inr ⟨c, v, rfl, rfl, execTick_stuck c v h⟩
  | clkStop | clkStart | rdStatus | rdPhys | rdChron | rdHead | rdStop | rdHist =>
    exact .inl ⟨_, rfl⟩
  | cmdR | cmdT | cmdIgn => cases hi

/-- Everything that can stop a step (R158, R201, R78). -/
inductive StopCase (s : State) : Host.Outcome State Fault Refusal → Prop where
  | runEnded (hf : s.form = .direct) (hr : s.refused = false) (hw : s.prog[s.dpc]? = none) :
      StopCase s (.fault .runEnded)
  | tickNotEnabled (w : Word) (c : Bool) (v : Byte) (hf : s.form = .direct) (hr : s.refused = false)
      (hw : s.prog[s.dpc]? = some w) (hd : decodeOp16 w = .ok (.tick c v))
      (ht : s.tickEnabled = false) : StopCase s (.fault .tickNotEnabled)
  | reservedWord (hf : s.form = .direct) (hr : s.refused = true) : StopCase s (.refused .reservedWord)

/-- A step answers a next state, or stops for a reason named. -/
theorem step_next_or_stops (s : State) : (∃ t, step s = .next t) ∨ StopCase s (step s) := by
  cases hf : s.form with
  | reference => exact .inl (referenceConsumerNeverStops s hf)
  | direct =>
    cases hr : s.refused with
    | true =>
      rw [step_refused hf hr]
      exact .inr (.reservedWord hf hr)
    | false =>
      cases hw : s.prog[s.dpc]? with
      | none =>
        rw [step_runEnded hf hr hw]
        exact .inr (.runEnded hf hr hw)
      | some w =>
        cases hd : decodeOp16 w with
        | error r => exact .inl ⟨_, step_reservedWord hf hr hw hd⟩
        | ok i =>
          rw [step_word hf hr hw hd]
          obtain hnext | ⟨c, v, rfl, ht, hstop⟩ :=
            exec_op16_stops i s.advanceDpc (decodeOp16_format hd)
          · exact .inl hnext
          · rw [hstop]
            exact .inr (.tickNotEnabled w c v hf hr hw hd ht)

theorem State.tickEnabled_eq_false_iff (s : State) :
    s.tickEnabled = false ↔ s.clkEn = false ∧ s.late = 0 := by
  simp [State.tickEnabled]

/-- Settles O57, by the inversion of a step that stops. -/
theorem stopsAreTheNamedOnes : Obligations.StopsAreTheNamedOnes := by
  unfold Obligations.StopsAreTheNamedOnes
  intro s
  refine ⟨fun f hf => ?_, fun r hr => ?_⟩
  · obtain ⟨t, ht⟩ | hstop := step_next_or_stops s
    · cases ht.symm.trans hf
    · rw [hf] at hstop
      cases hstop with
      | runEnded hd hr hw => exact ⟨hd, hr, .inl ⟨rfl, List.getElem?_eq_none_iff.1 hw⟩⟩
      | tickNotEnabled w c v hd hr hw hdec ht =>
        obtain ⟨hclk, hlate⟩ := s.tickEnabled_eq_false_iff.1 ht
        exact ⟨hd, hr, .inr ⟨rfl, hclk, hlate, w, c, v, hw, hdec⟩⟩
  · obtain ⟨t, ht⟩ | hstop := step_next_or_stops s
    · cases ht.symm.trans hr
    · rw [hr] at hstop
      cases hstop with
      | reservedWord hd href => exact ⟨hd, href, rfl⟩

end Sys2Proof.Machine
end

section
/-! O36 to O38: whose step changes what (20_memory.md section 3, 10_state.md section 4). -/
namespace Sys2Proof.Machine

/-! ### What an instruction but TICK leaves (R59) -/

/-- What no instruction but TICK changes, and the mark that such an instruction may set (R29, R59). -/
structure ExecFrame (s t : State) : Prop where
  core : SameCore s t
  form : t.form = s.form
  refused : t.refused = s.refused
  freezeLost : t.freezeLost = s.freezeLost
  unsyncRead : s.unsyncRead = true → t.unsyncRead = true

/-- A read sets `obs_frozen` or the mark of an unsynchronised read, and uses free values (R56). -/
theorem ReadLeaves.eq_update {s t : State} (h : ReadLeaves s t) :
    ∃ o u n, t = { s with obsFrozen := o, unsyncRead := s.unsyncRead || u, draws := n } := by
  cases h with
  | same => exact ⟨_, false, _, by rw [Bool.or_false]⟩
  | drawn => exact ⟨_, false, _, by rw [Bool.or_false]; rfl⟩
  | observed b => exact ⟨b, false, _, by rw [Bool.or_false]; rfl⟩
  | marked => exact ⟨_, s.clkEn, _, rfl⟩
  | markedDrawn => exact ⟨_, s.clkEn, _, rfl⟩

/-- The whole next state of a send that is not held (R176). -/
theorem sendStep_eq_update (j : Index) (s : State) :
    sendStep j s = s ∨ ∃ v n, sendStep j s = { s with
      unsyncRead := s.unsyncRead || s.clkEn, tx := s.tx ++ [v], txReady := false, draws := n,
      cons := afterSend j } := by
  obtain ⟨-, h⟩ | ⟨-, r, rfl | rfl, h⟩ := sendStep_cases j s
  · exact .inl h
  · exact .inr ⟨_, _, h⟩
  · exact .inr ⟨_, _, h⟩

/-- The whole next state of the level step (R180). -/
theorem levelStep_eq_update (a0 a1 b : Byte) (s : State) :
    ∃ v n, levelStep a0 a1 b s = { s with duty := v, cons := .waitCmd, draws := n } := by
  obtain ⟨v, r, rfl | rfl, h⟩ := levelStep_cases a0 a1 b s
  · exact ⟨v, _, h⟩
  · exact ⟨v, _, h⟩

theorem exec_frame {i : Instr} {s t : State} (h : exec i s = .next t) (hi : i.agent ≠ .tick) :
    ExecFrame s t := by
  cases exec_cases h with
  | tick => exact absurd rfl hi
  | read _ r hr =>
    obtain ⟨o, u, n, hr⟩ := hr.eq_update
    rw [State.logResult, hr]
    exact ⟨⟨rfl, rfl, rfl, rfl⟩, rfl, rfl, rfl, fun hu => by rw [hu, Bool.true_or]⟩
  | cmdRSend j =>
    obtain ht | ⟨v, n, ht⟩ := sendStep_eq_update j s <;> rw [ht]
    · exact ⟨⟨rfl, rfl, rfl, rfl⟩, rfl, rfl, rfl, id⟩
    · exact ⟨⟨rfl, rfl, rfl, rfl⟩, rfl, rfl, rfl, fun hu => by rw [hu, Bool.true_or]⟩
  | cmdTDigit2 _ _ d2 a0 a1 =>
    obtain ⟨v, n, ht⟩ := levelStep_eq_update a0 a1 d2 s
    rw [ht]
    exact ⟨⟨rfl, rfl, rfl, rfl⟩, rfl, rfl, rfl, id⟩
  | clkStop | clkStart | cmdRStart | cmdRPoll | cmdRStop | cmdRRestart | cmdTStart | cmdTDigit0
  | cmdTDigit1 | cmdIgn => exact ⟨⟨rfl, rfl, rfl, rfl⟩, rfl, rfl, rfl, id⟩

/-- The sample clock after an instruction but TICK: as it was, stopped, or restarted, the latter two by
the clock's own words and by `'r'` alone (R150, R151, R175, R177). -/
theorem exec_clock {i : Instr} {s t : State} (h : exec i s = .next t) (hi : i.agent ≠ .tick) :
    (t.clkEn = s.clkEn ∧ t.late = s.late) ∨
    ((i = .clkStop ∨ i = .cmdR) ∧ t.clkEn = false ∧
      t.late = if s.clkEn then Config.stopLateTicks else s.late) ∨
    ((i = .clkStart ∨ i = .cmdR) ∧ t.clkEn = true ∧ t.late = 0) := by
  cases exec_cases h with
  | tick => exact absurd rfl hi
  | clkStop => exact .inr (.inl ⟨.inl rfl, rfl, rfl⟩)
  | clkStart => exact .inr (.inr ⟨.inl rfl, rfl, rfl⟩)
  | cmdRStop => exact .inr (.inl ⟨.inr rfl, rfl, rfl⟩)
  | cmdRRestart => exact .inr (.inr ⟨.inr rfl, rfl, rfl⟩)
  | read _ r hr =>
    obtain ⟨o, u, n, hr⟩ := hr.eq_update
    rw [State.logResult, hr]
    exact .inl ⟨rfl, rfl⟩
  | cmdRSend j =>
    obtain ht | ⟨v, n, ht⟩ := sendStep_eq_update j s <;> rw [ht] <;> exact .inl ⟨rfl, rfl⟩
  | cmdTDigit2 _ _ d2 a0 a1 =>
    obtain ⟨v, n, ht⟩ := levelStep_eq_update a0 a1 d2 s
    rw [ht]
    exact .inl ⟨rfl, rfl⟩
  | cmdRStart | cmdRPoll | cmdTStart | cmdTDigit0 | cmdTDigit1 | cmdIgn => exact .inl ⟨rfl, rfl⟩

/-- Only CMD_T writes `duty` (R59). -/
theorem exec_duty {i : Instr} {s t : State} (h : exec i s = .next t)
    (hi : ∀ d0 d1 d2, i ≠ .cmdT d0 d1 d2) : t.duty = s.duty := by
  cases exec_cases h with
  | tick c v => exact (s.tick_sameConsumer c v).duty
  | read _ r hr =>
    obtain ⟨o, u, n, hr⟩ := hr.eq_update
    rw [State.logResult, hr]
  | cmdRSend j => obtain ht | ⟨v, n, ht⟩ := sendStep_eq_update j s <;> rw [ht]
  | cmdTStart | cmdTDigit0 | cmdTDigit1 | cmdTDigit2 => exact absurd rfl (hi _ _ _)
  | clkStop | clkStart | cmdRStart | cmdRPoll | cmdRStop | cmdRRestart | cmdIgn => rfl

/-- The tick agent's one instruction is TICK (R74). -/
theorem exec_tick_agent {i : Instr} {s t : State} (h : exec i s = .next t) (hi : i.agent = .tick) :
    ∃ c v, s.tickEnabled = true ∧ t = s.tick c v := by
  cases i with
  | tick c v =>
    cases exec_cases h with
    | tick _ _ hen => exact ⟨c, v, hen, rfl⟩
    | read hr => cases hr
  | _ => cases hi

/-- Settles O37: the frame of every instruction but TICK, TICK's own frame, and the writers of `duty` and
of `clk_en`. -/
theorem eachAgentWritesItsOwn : Obligations.EachAgentWritesItsOwn := by
  unfold Obligations.EachAgentWritesItsOwn
  intro i s t h
  have htick : i.agent = .tick → SameConsumer s t := by
    intro hi
    obtain ⟨c, v, -, rfl⟩ := exec_tick_agent h hi
    exact s.tick_sameConsumer c v
  refine ⟨fun hi => (exec_frame h hi).core, fun hi => ⟨(htick hi).clkEn, (htick hi).duty⟩, exec_duty h,
    fun hstop hstart hr => ?_⟩
  by_cases hi : i.agent = .tick
  · exact (htick hi).clkEn
  · obtain ⟨hclk, -⟩ | ⟨hi', -⟩ | ⟨hi', -⟩ := exec_clock h hi
    · exact hclk
    · exact absurd hi' (not_or.2 ⟨hstop, hr⟩)
    · exact absurd hi' (not_or.2 ⟨hstart, hr⟩)

/-! ### What fetching leaves (R158, R171, R206) -/

/-- What fetching changes nothing of; the only mark it writes is `refused`, which it may set (R78). -/
structure FetchFrame (s t : State) : Prop where
  core : SameCore s t
  clkEn : t.clkEn = s.clkEn
  late : t.late = s.late
  form : t.form = s.form
  unsyncRead : t.unsyncRead = s.unsyncRead
  freezeLost : t.freezeLost = s.freezeLost
  refused : s.refused = true → t.refused = true

/-- The state that fetching has moved to, if it has not stopped, is `s` but for the fetch. -/
def Fetched.Leaves (s : State) : Fetched → Prop
  | .instr _ t => FetchFrame s t
  | .moved t => FetchFrame s t
  | .fault _ | .refused _ => True

theorem FetchFrame.refl (s : State) : FetchFrame s s :=
  ⟨⟨rfl, rfl, rfl, rfl⟩, rfl, rfl, rfl, rfl, rfl, id⟩

theorem SameCore.trans {s t u : State} (h : SameCore s t) (h' : SameCore t u) : SameCore s u :=
  ⟨h'.buf.trans h.buf, h'.head.trans h.head, h'.hist.trans h.hist, h'.st.trans h.st⟩

theorem FetchFrame.trans {s t u : State} (h : FetchFrame s t) (h' : FetchFrame t u) : FetchFrame s u where
  core := h.core.trans h'.core
  clkEn := h'.clkEn.trans h.clkEn
  late := h'.late.trans h.late
  form := h'.form.trans h.form
  unsyncRead := h'.unsyncRead.trans h.unsyncRead
  freezeLost := h'.freezeLost.trans h.freezeLost
  refused := h'.refused ∘ h.refused

theorem takeTurn_frame (s : State) : FetchFrame s s.takeTurn.2 := by
  obtain ⟨_, ts, -, h⟩ | ⟨-, h⟩ := s.takeTurn_cases <;> rw [h] <;>
    exact ⟨⟨rfl, rfl, rfl, rfl⟩, rfl, rfl, rfl, rfl, rfl, id⟩

theorem Fetched.Leaves.trans {s t : State} {f : Fetched} (hf : f.Leaves t) (h : FetchFrame s t) :
    f.Leaves s := by
  cases f with
  | instr | moved => exact h.trans hf
  | fault | refused => trivial

theorem fetchDirect_leaves (s : State) : (fetchDirect s).Leaves s := by
  unfold fetchDirect
  split
  · trivial
  split
  · trivial
  split
  · exact ⟨⟨rfl, rfl, rfl, rfl⟩, rfl, rfl, rfl, rfl, rfl, id⟩
  · exact ⟨⟨rfl, rfl, rfl, rfl⟩, rfl, rfl, rfl, rfl, rfl, fun _ => rfl⟩

theorem fetchConsumer_leaves (s : State) : (fetchConsumer s).Leaves s := by
  unfold fetchConsumer
  split <;> exact ⟨⟨rfl, rfl, rfl, rfl⟩, rfl, rfl, rfl, rfl, rfl, id⟩

theorem fetchTurn_leaves (x : Turn) (s : State) : (fetchTurn x s).Leaves s := by
  cases x with
  | tick c v =>
    rw [fetchTurn]
    split <;> exact FetchFrame.refl s
  | consumer => exact fetchConsumer_leaves s
  | hostSend b => exact ⟨⟨rfl, rfl, rfl, rfl⟩, rfl, rfl, rfl, rfl, rfl, id⟩
  | hostAccept => exact ⟨⟨rfl, rfl, rfl, rfl⟩, rfl, rfl, rfl, rfl, rfl, id⟩

theorem fetch_leaves (s : State) : (fetch s).Leaves s := by
  unfold fetch
  split
  · exact fetchDirect_leaves s
  · exact (fetchTurn_leaves _ _).trans (takeTurn_frame s)

/-- A step is a fetch, and an instruction in the state fetched to if the fetch has found one. -/
theorem step_fetch_exec {s t : State} (h : step s = .next t) :
    ∃ u, FetchFrame s u ∧ (t = u ∨ ∃ i, exec i u = .next t) := by
  have hf := fetch_leaves s
  unfold step at h
  cases hfetch : fetch s with
  | instr i u =>
    rw [hfetch] at h hf
    exact ⟨u, hf, .inr ⟨i, h⟩⟩
  | moved u =>
    rw [hfetch] at h hf
    cases h
    exact ⟨_, hf, .inl rfl⟩
  | fault | refused =>
    rw [hfetch] at h
    cases h

/-- Settles O36: while the clock is stopped TICK is not enabled, and no other instruction and no fetch
changes the core. -/
theorem stoppedClockFencesTheCore : Obligations.StoppedClockFencesTheCore := by
  unfold Obligations.StoppedClockFencesTheCore
  refine ⟨fun s t hclk ht => ?_, fun s t hclk hlate h => ?_⟩
  · cases ht
    refine ⟨rfl, ?_⟩
    rw [State.stopClock_late, if_pos hclk]
    rfl
  · obtain ⟨u, hu, rfl | ⟨i, hi⟩⟩ := step_fetch_exec h
    · exact hu.core
    · refine hu.core.trans (exec_frame hi fun htick => ?_).core
      obtain ⟨c, v, hen, -⟩ := exec_tick_agent hi htick
      cases (State.tickEnabled_eq_false (hu.clkEn.trans hclk) (hu.late.trans hlate)).symm.trans hen

/-- An instruction clears no sticky mark (R29). -/
theorem exec_marks {i : Instr} {s t : State} (h : exec i s = .next t) :
    t.refused = s.refused ∧ (s.unsyncRead = true → t.unsyncRead = true) ∧
      (s.freezeLost = true → t.freezeLost = true) := by
  by_cases hi : i.agent = .tick
  · obtain ⟨c, v, -, rfl⟩ := exec_tick_agent h hi
    have hcons := s.tick_sameConsumer c v
    refine ⟨hcons.refused, fun hu => hcons.unsyncRead.trans hu, fun hl => ?_⟩
    rw [State.tick_freezeLost_eq, hl, Bool.true_or]
  · have hframe := exec_frame h hi
    exact ⟨hframe.refused, hframe.unsyncRead, fun hl => hframe.freezeLost.trans hl⟩

/-- Settles O38: neither a fetch nor an instruction clears a mark. -/
theorem marksAreSticky : Obligations.MarksAreSticky := by
  unfold Obligations.MarksAreSticky
  intro s t h
  obtain ⟨u, hu, rfl | ⟨i, hi⟩⟩ := step_fetch_exec h
  · exact ⟨hu.refused, fun hr => hu.unsyncRead.trans hr, fun hl => hu.freezeLost.trans hl⟩
  · obtain ⟨hrefused, hunsync, hlost⟩ := exec_marks hi
    exact ⟨fun hr => hrefused.trans (hu.refused hr), fun hr => hunsync (hu.unsyncRead.trans hr),
      fun hl => hlost (hu.freezeLost.trans hl)⟩

end Sys2Proof.Machine
end

section
/-! O47, O58 and O59: the consumer's position moves within its command, and the invariant is kept by
every step (43_command_processor.md, 10_state.md section 5). -/
namespace Sys2Proof.Machine

/-! ### Steps by form (R158, R206) -/

/-- Under the reference consumer a step is a turn, with a turn of the schedule or a free value used. -/
theorem step_turn {s t : State} (hf : s.form = .reference) (h : step s = .next t) :
    ∃ x ts n, TurnCase x { s with sched := ts, draws := n } t := by
  cases step_cases h with
  | turn x ts _ _ _ ht => exact ⟨x, ts, s.draws, turnStep_cases ht⟩
  | freeTurn x _ _ _ ht => exact ⟨x, s.sched, s.draws + 1, turnStep_cases ht⟩
  | refusedWord _ _ hf' => cases hf.symm.trans hf'
  | word _ _ _ hf' => cases hf.symm.trans hf'

/-- What an interface word touches nothing of (R59). -/
structure WordFrame (s t : State) : Prop where
  prog : t.prog = s.prog
  dpc : t.dpc = s.dpc
  rx : t.rx = s.rx
  cons : t.cons = s.cons

theorem exec_word_frame {i : Instr} {s t : State} (hi : i.format = .op16) (h : exec i s = .next t) :
    WordFrame s t := by
  cases exec_cases h with
  | tick c v =>
    have hcons := s.tick_sameConsumer c v
    exact ⟨hcons.prog, hcons.dpc, hcons.rx, hcons.cons⟩
  | read _ r hr =>
    obtain ⟨o, u, n, hr⟩ := hr.eq_update
    rw [State.logResult, hr]
    exact ⟨rfl, rfl, rfl, rfl⟩
  | clkStop | clkStart => exact ⟨rfl, rfl, rfl, rfl⟩
  | cmdRStart | cmdRPoll | cmdRStop | cmdRSend | cmdRRestart | cmdTStart | cmdTDigit0 | cmdTDigit1
  | cmdTDigit2 | cmdIgn => cases hi

/-- The step of the direct consumer moves its position by at most one word of the list, and leaves the
reference consumer's position and the host's stream. -/
theorem step_direct_frame {s t : State} (hf : s.form = .direct) (h : step s = .next t) :
    t.cons = s.cons ∧ t.rx = s.rx ∧ t.prog = s.prog ∧
      (t.dpc = s.dpc ∨ t.dpc = s.dpc + 1 ∧ s.dpc < s.prog.length) := by
  cases step_cases h with
  | refusedWord => exact ⟨rfl, rfl, rfl, .inl rfl⟩
  | word w i _ _ _ hw hd ht =>
    have hframe := exec_word_frame (decodeOp16_format hd) ht
    exact ⟨hframe.cons, hframe.rx, hframe.prog, .inr ⟨hframe.dpc, (List.getElem?_eq_some_iff.1 hw).1⟩⟩
  | turn _ _ _ hf' => cases hf.symm.trans hf'
  | freeTurn _ _ hf' => cases hf.symm.trans hf'

/-! ### The positions inside a command (R170, R182) -/

/-- Where a position of the reference consumer is left for: from `WaitCmd` anywhere, inside a command the
next position of the same command (R173 to R180). -/
def Cons.LeavesFor : Cons → Cons → Prop
  | .waitCmd, _ => True
  | .tDig0, c => ∃ a, c = .tDig1 a
  | .tDig1 a, c => ∃ b, c = .tDig2 a b
  | .tDig2 _ _, c => c = .waitCmd
  | .rPoll, c => c = .rStop
  | .rStop, c => c = .rSend 0#10
  | .rSend j, c => c = afterSend j
  | .rStart, c => c = .waitCmd

theorem TurnCase.cons_move {x : Turn} {s t : State} (h : TurnCase x s t) :
    t.cons = s.cons ∨ s.cons.LeavesFor t.cons := by
  cases h with
  | tick c v => exact .inl (s.tick_sameConsumer c v).cons
  | noTick | hostSend | hostAccept | held => exact .inl rfl
  | command b bs _ hc =>
    rw [hc]
    exact .inr trivial
  | digit0 b bs _ hc =>
    rw [hc]
    exact .inr ⟨b, rfl⟩
  | digit1 b bs a0 _ hc =>
    rw [hc]
    exact .inr ⟨b, rfl⟩
  | digit2 b bs a0 a1 _ hc =>
    obtain ⟨v, n, ht⟩ := levelStep_eq_update a0 a1 b (s.setRx bs)
    rw [hc, ht]
    exact .inr rfl
  | poll hc =>
    rw [hc, pollStep_eq, State.setCons_cons]
    split
    · exact .inr rfl
    · exact .inl rfl
  | stop hc | restart hc =>
    rw [hc]
    exact .inr rfl
  | send j hc =>
    obtain ht | ⟨v, n, ht⟩ := sendStep_eq_update j s <;> rw [ht]
    · exact .inl rfl
    · rw [hc]
      exact .inr rfl

theorem step_cons_move {s t : State} (h : step s = .next t) :
    t.cons = s.cons ∨ s.cons.LeavesFor t.cons := by
  cases hf : s.form with
  | direct => exact .inl (step_direct_frame hf h).1
  | reference =>
    obtain ⟨x, ts, n, hx⟩ := step_turn hf h
    exact hx.cons_move

/-- Inside `'r'` the consumer takes no byte; the host may send one (R171, R182). -/
theorem TurnCase.rx_of_inDump {x : Turn} {s t : State} (h : TurnCase x s t) (hd : s.cons.inDump) :
    t.rx = s.rx ∨ ∃ b, t.rx = s.rx ++ [b] := by
  cases h with
  | tick c v => exact .inl (s.tick_sameConsumer c v).rx
  | hostSend b => exact .inr ⟨b, rfl⟩
  | noTick | hostAccept | held | poll | stop | restart => exact .inl rfl
  | send j => obtain ht | ⟨v, n, ht⟩ := sendStep_eq_update j s <;> rw [ht] <;> exact .inl rfl
  | command _ _ _ hc | digit0 _ _ _ hc | digit1 _ _ _ _ hc | digit2 _ _ _ _ _ hc =>
    simp [hc, Cons.inDump] at hd

theorem step_rx_of_inDump {s t : State} (h : step s = .next t) (hd : s.cons.inDump) :
    t.rx = s.rx ∨ ∃ b, t.rx = s.rx ++ [b] := by
  cases hf : s.form with
  | direct => exact .inl (step_direct_frame hf h).2.1
  | reference =>
    obtain ⟨x, ts, n, hx⟩ := step_turn hf h
    exact hx.rx_of_inDump hd

theorem exec_cmdR_inLevel {s : State}
    (hc : s.cons = .tDig0 ∨ (∃ a, s.cons = .tDig1 a) ∨ ∃ a b, s.cons = .tDig2 a b) :
    exec .cmdR s = .fault .commandInProgress := by
  obtain hc | ⟨a, hc⟩ | ⟨a, b, hc⟩ := hc <;> rw [exec, execCmdR, hc]

theorem exec_cmdT_inDump {s : State} (hc : s.cons.inDump) (d0 d1 d2 : Byte) :
    exec (.cmdT d0 d1 d2) s = .fault .commandInProgress := by
  obtain hc | hc | ⟨j, hc⟩ | hc := hc <;> rw [exec, execCmdT, hc]

theorem exec_cmdIgn_of_ne {s : State} (hc : s.cons ≠ .waitCmd) (b : Byte) :
    exec (.cmdIgn b) s = .fault .commandInProgress := by
  rw [exec, execCmdIgn]
  cases hs : s.cons with
  | waitCmd => exact absurd hs hc
  | _ => rfl

/-- Settles O47: the moves of the position and the stream in every step, the stops of a step, which are
others, and the guards of the three meanings. -/
theorem noCommandInsideAnother : Obligations.NoCommandInsideAnother := by
  unfold Obligations.NoCommandInsideAnother
  refine ⟨fun s t h => ?_, fun s h => ?_,
    fun s => ⟨exec_cmdR_inLevel, exec_cmdT_inDump, exec_cmdIgn_of_ne⟩⟩
  · have hmove : ∀ c, s.cons = c → t.cons = s.cons ∨ c.LeavesFor t.cons := by
      rintro _ rfl
      exact step_cons_move h
    simp only [← afterSend_eq]
    exact ⟨hmove _, fun a => hmove _, fun a b => hmove _, hmove _, hmove _, fun j => hmove _, hmove _,
      step_rx_of_inDump h⟩
  · obtain ⟨t, ht⟩ | hstop := step_next_or_stops s
    · cases ht.symm.trans h
    · rw [h] at hstop
      cases hstop

/-! ### The capture core's part of the invariant (R36, R37) -/

/-- What the invariant says of the buffer, the trigger and the clock. -/
structure State.CoreInv (s : State) : Prop where
  bufWf : Memory.wf s.buf = true
  stopAhead : s.stopAhead
  lateBound : s.late ≤ Config.stopLateTicks
  lateRunning : s.clkEn = true → s.late = 0

theorem State.stopAhead_of_sameCore {s t : State} (h : SameCore s t) (hs : s.stopAhead) :
    t.stopAhead := by
  intro p hp
  rw [h.head]
  exact hs p (h.st.symm.trans hp)

/-- An arming tick puts the stop index 511 ahead of the `head` it leaves; every other tick brings `head`
one nearer, and at the stop index the trigger is no longer armed (R124, R125). -/
theorem State.tick_stopAhead {s : State} (c : Bool) (v : Byte) (h : s.stopAhead) :
    (s.tick c v).stopAhead := by
  have hhead := s.head.isLt
  intro p hp
  rw [State.tick_head, nextIndex_toNat]
  cases hst : s.st with
  | frozen =>
    rw [State.tick_st_of_frozen c v hst] at hp
    cases hp
  | idle =>
    rw [State.tick_st_of_idle c v hst] at hp
    split_ifs at hp
    obtain rfl := Trigger.armed.inj hp
    have hdist : ((s.head.toNat + 512) % 1024 + 1024 - (s.head.toNat + 1) % 1024) % 1024 = 511 := by
      omega
    rw [stopIndexFor_toNat, Config.capacity, hdist]
    decide
  | armed q =>
    rw [State.tick_st_of_armed c v hst] at hp
    split_ifs at hp with hq
    obtain rfl := Trigger.armed.inj hp
    have hdist := h q hst
    have hne := BitVec.toNat_inj.ne.2 hq
    have hlt := q.isLt
    simp only [Config.capacity, Config.half, BitVec.toNat_ofNat] at hdist ⊢
    omega

theorem exec_coreInv {i : Instr} {s t : State} (h : exec i s = .next t) (hs : s.CoreInv) :
    t.CoreInv := by
  by_cases hi : i.agent = .tick
  · obtain ⟨c, v, -, rfl⟩ := exec_tick_agent h hi
    refine ⟨?_, s.tick_stopAhead c v hs.stopAhead, ?_, fun hclk => ?_⟩
    · rw [State.tick_buf]
      exact Memory.wf_write _ _ s.head.isLt hs.bufWf
    · rw [State.tick_late]
      have := hs.lateBound
      split <;> omega
    · rw [State.tick_clkEn] at hclk
      rw [State.tick_late, if_pos hclk, hs.lateRunning hclk]
  · have hcore := (exec_frame h hi).core
    have hclock : t.late ≤ Config.stopLateTicks ∧ (t.clkEn = true → t.late = 0) := by
      obtain ⟨hclk, hlate⟩ | ⟨-, hclk, hlate⟩ | ⟨-, hclk, hlate⟩ := exec_clock h hi <;> rw [hclk, hlate]
      · exact ⟨hs.lateBound, hs.lateRunning⟩
      · refine ⟨?_, nofun⟩
        split
        · exact le_rfl
        · exact hs.lateBound
      · exact ⟨Nat.zero_le _, fun _ => rfl⟩
    exact ⟨(congrArg Memory.wf hcore.buf).trans hs.bufWf,
      State.stopAhead_of_sameCore hcore hs.stopAhead, hclock.1, hclock.2⟩

theorem FetchFrame.coreInv {s t : State} (h : FetchFrame s t) (hs : s.CoreInv) : t.CoreInv where
  bufWf := (congrArg Memory.wf h.core.buf).trans hs.bufWf
  stopAhead := State.stopAhead_of_sameCore h.core hs.stopAhead
  lateBound := h.late.trans_le hs.lateBound
  lateRunning hclk := h.late.trans (hs.lateRunning (h.clkEn.symm.trans hclk))

/-! ### The reference consumer's part of the invariant (R36, item 4, R29) -/

/-- The fields that the consumer's part speaks of. -/
theorem State.ConsInv.congr {s t : State} (hs : s.ConsInv) (hclk : t.clkEn = s.clkEn)
    (hcons : t.cons = s.cons) (hobs : t.obsFrozen = s.obsFrozen) (href : t.refused = s.refused)
    (hsync : t.unsyncRead = s.unsyncRead) : t.ConsInv := by
  refine ⟨?_, ?_, href.trans hs.notRefused, hsync.trans hs.synced⟩
  · rw [hclk, hcons]
    exact hs.clock
  · rw [hobs, hcons]
    exact hs.obs

/-- Between positions that hold the clock alike, neither of them `RStop`, nothing else need change. -/
theorem State.ConsInv.move {s t : State} (hs : s.ConsInv) (hclk : t.clkEn = s.clkEn)
    (hstop : t.cons.clockStopped = s.cons.clockStopped) (hr : s.cons ≠ .rStop) (hr' : t.cons ≠ .rStop)
    (hobs : t.obsFrozen = s.obsFrozen) (href : t.refused = s.refused)
    (hsync : t.unsyncRead = s.unsyncRead) : t.ConsInv where
  clock := by rw [hclk, hstop, hs.clock]
  obs := ⟨fun h => absurd (hs.obs.1 (hobs.symm.trans h)) hr, fun h => absurd h hr'⟩
  notRefused := href.trans hs.notRefused
  synced := hsync.trans hs.synced

theorem afterSend_clockStopped (j : Index) : (afterSend j).clockStopped = true := by
  unfold afterSend
  split <;> rfl

theorem afterSend_ne_rStop (j : Index) : afterSend j ≠ .rStop := by
  unfold afterSend
  split <;> exact Cons.noConfusion

theorem TurnCase.consInv {x : Turn} {s t : State} (h : TurnCase x s t) (hs : s.ConsInv) :
    t.ConsInv := by
  cases h with
  | tick c v =>
    have hcons := s.tick_sameConsumer c v
    exact hs.congr hcons.clkEn hcons.cons hcons.obsFrozen hcons.refused hcons.unsyncRead
  | noTick | held => exact hs
  | hostSend | hostAccept => exact hs.congr rfl rfl rfl rfl rfl
  | command b bs _ hc =>
    refine hs.move rfl ?_ (by simp [hc]) ?_ rfl rfl rfl
    · rw [hc, State.setCons_cons]
      split_ifs <;> rfl
    · rw [State.setCons_cons]
      split_ifs <;> exact Cons.noConfusion
  | digit0 _ _ _ hc | digit1 _ _ _ _ hc =>
    exact hs.move rfl (by rw [hc]; rfl) (by simp [hc]) Cons.noConfusion rfl rfl rfl
  | digit2 b bs a0 a1 _ hc =>
    obtain ⟨v, n, ht⟩ := levelStep_eq_update a0 a1 b (s.setRx bs)
    rw [ht]
    exact hs.move rfl (by rw [hc]; rfl) (by simp [hc]) Cons.noConfusion rfl rfl rfl
  | poll hc =>
    have hclk := hs.clock
    rw [hc] at hclk
    rw [pollStep_eq]
    by_cases hst : s.st = .frozen
    · exact ⟨by simp [hst, hclk, Cons.clockStopped], by simp [hst], hs.notRefused, hs.synced⟩
    · exact ⟨by simp [hst, hclk, Cons.clockStopped], by simp [hst], hs.notRefused, hs.synced⟩
  | stop => exact ⟨rfl, ⟨nofun, nofun⟩, hs.notRefused, hs.synced⟩
  | send j hc =>
    have hclk := hs.clock
    rw [hc] at hclk
    obtain ht | ⟨v, n, ht⟩ := sendStep_eq_update j s <;> rw [ht]
    · exact hs
    · refine hs.move rfl ?_ (by simp [hc]) (afterSend_ne_rStop j) rfl rfl ?_
      · rw [hc, afterSend_clockStopped]
        rfl
      · show (s.unsyncRead || s.clkEn) = s.unsyncRead
        rw [hclk]
        exact Bool.or_false _
  | restart hc =>
    refine ⟨rfl, ⟨fun h => ?_, nofun⟩, hs.notRefused, hs.synced⟩
    cases hc.symm.trans (hs.obs.1 h)

/-! ### The whole invariant (10_state.md section 5) -/

theorem State.Inv.core {s : State} (h : s.Inv) : s.CoreInv :=
  ⟨h.bufWf, h.stopAhead, h.lateBound, h.lateRunning⟩

theorem step_coreInv {s t : State} (h : step s = .next t) (hs : s.CoreInv) : t.CoreInv := by
  obtain ⟨u, hu, rfl | ⟨i, hi⟩⟩ := step_fetch_exec h
  · exact hu.coreInv hs
  · exact exec_coreInv hi (hu.coreInv hs)

theorem exec_form {i : Instr} {s t : State} (h : exec i s = .next t) : t.form = s.form := by
  by_cases hi : i.agent = .tick
  · obtain ⟨c, v, -, rfl⟩ := exec_tick_agent h hi
    exact (s.tick_sameConsumer c v).form
  · exact (exec_frame h hi).form

theorem step_form {s t : State} (h : step s = .next t) : t.form = s.form := by
  obtain ⟨u, hu, rfl | ⟨i, hi⟩⟩ := step_fetch_exec h
  · exact hu.form
  · exact (exec_form hi).trans hu.form

/-- Settles O58: at reset the buffer is empty, the trigger `Idle`, the clock runs, and the consumer waits
for a command. -/
theorem invariantHoldsAtReset : Obligations.InvariantHoldsAtReset := by
  unfold Obligations.InvariantHoldsAtReset
  have hreset : ∀ h d : Byte, (State.resetWith h d).Inv := fun h d =>
    { bufWf := State.resetWith_wf h d
      stopAhead := nofun
      lateBound := le_rfl
      lateRunning := fun _ => rfl
      dpcBound := nofun
      consumer := fun _ => ⟨rfl, ⟨nofun, nofun⟩, rfl, rfl⟩ }
  exact ⟨hreset _ _, hreset⟩

/-- Settles O59: the capture core's part by fetch and instruction, the list's bound in the direct form,
and the consumer's part by turns in the reference form. -/
theorem stepKeepsInvariant : Obligations.StepKeepsInvariant := by
  unfold Obligations.StepKeepsInvariant
  intro s t hs h
  obtain ⟨hbuf, hstop, hlate, hrun⟩ := step_coreInv h hs.core
  have hform := step_form h
  refine ⟨hbuf, hstop, hlate, hrun, fun hf => ?_, fun hf => ?_⟩ <;> rw [hform] at hf
  · obtain ⟨-, -, hprog, hdpc⟩ := step_direct_frame hf h
    have hbound := hs.dpcBound hf
    rw [hprog]
    omega
  · obtain ⟨x, ts, n, hx⟩ := step_turn hf h
    exact hx.consInv ((hs.consumer hf).congr rfl rfl rfl rfl rfl)

end Sys2Proof.Machine
end

section
/-! O49: a dump sends the window in chronological order (43_command_processor.md sections 3 and 5). -/
namespace Sys2Proof.Machine

/-! ### The window's bytes (R73) -/

theorem State.windowBytes_succ {s : State} {k : Nat} {v : Byte} (h : s.windowCell k = some v) :
    s.windowBytes (k + 1) = s.windowBytes k ++ [v] := by
  simp [State.windowBytes, List.range_succ, List.filterMap_append, h]

/-- Where every cell is written, each position gives a byte (R36, item 5). -/
theorem State.windowBytes_length {s : State} (h : s.allWritten) {k : Nat} (hk : k ≤ Config.capacity) :
    (s.windowBytes k).length = k := by
  induction k with
  | zero => rfl
  | succ k ih =>
    obtain ⟨v, hv⟩ := Option.isSome_iff_exists.1 (h k hk)
    rw [State.windowBytes_succ hv, List.length_append, List.length_singleton, ih (Nat.le_of_succ_le hk)]

/-- The send of a window byte that is written (R176). -/
theorem sendStep_windowCell {s : State} {j : Index} {v : Byte} (hready : s.txReady = true)
    (hv : s.windowCell j.toNat = some v) :
    sendStep j s = (s.markUnsync.send v).setCons (afterSend j) :=
  sendStep_of_ready hready (State.readChron_written hv)

/-! ### The dump's steps (R176 to R178) -/

/-- Sending window byte `j` leaves the window's first `j + 1` bytes sent. -/
theorem DumpInProgress.sendStep {sent : List Byte} {s : State} {j : Index}
    (h : DumpInProgress sent s) (hc : s.cons = .rSend j) : DumpInProgress sent (sendStep j s) := by
  by_cases hready : s.txReady = true
  · obtain ⟨hform, hclk, hlate, hall, ⟨j', hc', htx⟩ | ⟨hc', -⟩⟩ := h
    · obtain rfl := Cons.rSend.inj (hc'.symm.trans hc)
      obtain ⟨v, hv⟩ := Option.isSome_iff_exists.1 (hall j'.toNat j'.isLt)
      have hsent : s.tx ++ [v] = sent ++ s.windowBytes (j'.toNat + 1) := by
        rw [State.windowBytes_succ hv, htx, List.append_assoc]
      rw [sendStep_windowCell hready hv, afterSend_eq]
      refine ⟨hform, hclk, hlate, hall, ?_⟩
      by_cases hlast : j'.toNat < 1023
      · rw [if_pos hlast]
        refine .inl ⟨_, rfl, ?_⟩
        rw [BitVec.toNat_ofNat, Nat.mod_eq_of_lt (by omega)]
        exact hsent
      · have hj : j'.toNat + 1 = Config.capacity := by
          have := j'.isLt
          simp only [Config.capacity]
          omega
        rw [if_neg hlast]
        rw [hj] at hsent
        exact .inr ⟨rfl, hsent⟩
    · cases hc'.symm.trans hc
  · rwa [sendStep_of_not_ready j (by simpa using hready)]

/-- A turn keeps a dump in progress but for the restart at its end: TICK is not enabled, no byte is
awaited, and the other agents touch neither the window nor what has been sent. -/
theorem TurnCase.dumpInProgress {x : Turn} {sent : List Byte} {s t : State} (h : TurnCase x s t)
    (hs : DumpInProgress sent s) : DumpInProgress sent t ∨ s.cons = .rStart ∧ t = restartStep s := by
  have ⟨_, hclk, hlate, _, hpos⟩ := hs
  have hcons : (∃ j, s.cons = .rSend j) ∨ s.cons = .rStart :=
    hpos.imp (fun ⟨j, hc, _⟩ => ⟨j, hc⟩) And.left
  cases h with
  | tick c v hen => cases (State.tickEnabled_eq_false hclk hlate).symm.trans hen
  | noTick | hostSend | hostAccept | held => exact .inl hs
  | send j hc => exact .inl (hs.sendStep hc)
  | restart hc => exact .inr ⟨hc, rfl⟩
  | command _ _ _ hc | digit0 _ _ _ hc | digit1 _ _ _ _ hc | digit2 _ _ _ _ _ hc | poll hc
  | stop hc => simp [hc] at hcons

/-- Settles O49: every turn but the last restart keeps the dump in progress; the restart leaves the window
whose 1024 bytes have then been sent. -/
theorem dumpSendsWindowInOrder : Obligations.DumpSendsWindowInOrder := by
  unfold Obligations.DumpSendsWindowInOrder
  refine ⟨fun sent s t hs h => ?_, fun s hf hclk hc hall => ?_⟩
  · obtain ⟨x, ts, n, hx⟩ := step_turn hs.1 h
    obtain ht | ⟨hc, rfl⟩ := hx.dumpInProgress (sent := sent) hs
    · exact .inl ht
    · obtain ⟨-, -, -, hall, ⟨j, hc', -⟩ | ⟨-, htx⟩⟩ := hs
      · cases hc'.symm.trans hc
      · exact .inr ⟨rfl, rfl, State.windowBytes_length (s := restartStep _) hall le_rfl, htx⟩
  · refine ⟨stopStep s, exec_cmdR_rStop hc, ⟨hf, rfl, ?_, hall, .inl ⟨0#10, rfl, ?_⟩⟩, rfl, rfl, rfl, rfl⟩
    · show (if s.clkEn then Config.stopLateTicks else s.late) = 0
      rw [if_pos hclk]
      rfl
    · exact (List.append_nil s.tx).symm

end Sys2Proof.Machine
end

section
/-! O50: in a weakly fair run a dump that has begun ends (60_exceptions.md section 5). -/
namespace Sys2Proof.Machine

/-! ### Progress under weak fairness (R213) -/

/-- Weak fairness as a rule of progress: where `P` holds until `Q` does, and a turn `x` that `P` for ever
brings about leads from `P` to `Q`, a run in `P` comes to `Q`. -/
theorem eventually_of_fair {e : Nat → Turn} {r : Nat → State} {P Q : State → Prop} {x : Turn} {n : Nat}
    (hkeep : ∀ m, P (r m) → P (r (m + 1)) ∨ Q (r (m + 1)))
    (hfair : (∀ m, n ≤ m → P (r m)) → ∃ m, n ≤ m ∧ e m = x)
    (hmove : ∀ m, P (r m) → e m = x → Q (r (m + 1))) (hn : P (r n)) : ∃ m, n ≤ m ∧ Q (r m) := by
  by_contra hno
  have hP : ∀ m, n ≤ m → P (r m) := by
    intro m hm
    induction m, hm using Nat.le_induction with
    | base => exact hn
    | succ m hm ih => exact (hkeep m ih).resolve_right fun hQ => hno ⟨m + 1, Nat.le_succ_of_le hm, hQ⟩
  obtain ⟨m, hm, hx⟩ := hfair hP
  exact hno ⟨m + 1, Nat.le_succ_of_le hm, hmove m (hP m hm) hx⟩

/-- A run in `P` comes to `Q`, from any point on. -/
def LeadsTo (r : Nat → State) (P Q : State → Prop) : Prop := ∀ n, P (r n) → ∃ m, n ≤ m ∧ Q (r m)

theorem LeadsTo.trans {r : Nat → State} {P Q R : State → Prop} (h : LeadsTo r P Q)
    (h' : LeadsTo r Q R) : LeadsTo r P R := by
  intro n hn
  obtain ⟨m, hm, hQ⟩ := h n hn
  obtain ⟨k, hk, hR⟩ := h' m hQ
  exact ⟨k, hm.trans hk, hR⟩

/-! ### One position of the dump (R174 to R177) -/

/-- Another agent's turn leaves the consumer where it is, and a ready transport ready. -/
theorem TurnCase.other_agent {x : Turn} {s t : State} (h : TurnCase x s t) (hx : x ≠ .consumer) :
    t.cons = s.cons ∧ (s.txReady = true → t.txReady = true) := by
  cases h with
  | tick c v =>
    have hcons := s.tick_sameConsumer c v
    exact ⟨hcons.cons, fun hr => hcons.txReady.trans hr⟩
  | noTick | hostSend => exact ⟨rfl, id⟩
  | hostAccept => exact ⟨rfl, fun _ => rfl⟩
  | held | command | digit0 | digit1 | digit2 | poll | stop | send | restart => exact absurd rfl hx

/-- While the transport is not ready, every turn leaves the consumer at its window byte (R172, R176). -/
theorem turnStep_cons_of_not_ready {x : Turn} {s t : State} {j : Index} (h : turnStep x s = .next t)
    (hc : s.cons = .rSend j) (hready : s.txReady = false) : t.cons = .rSend j := by
  by_cases hx : x = .consumer
  · rw [hx, turnStep_inDump (.inr (.inr (.inl ⟨j, hc⟩))), exec_cmdR_rSend hc,
      sendStep_of_not_ready j hready] at h
    cases h
    exact hc
  · exact ((turnStep_cases h).other_agent hx).1.trans hc

theorem State.consumerEnabled_of_inDump {s : State} (h : s.cons.inDump)
    (hready : ∀ j, s.cons = .rSend j → s.txReady = true) : s.consumerEnabled = true := by
  obtain hc | hc | ⟨j, hc⟩ | hc := h <;> rw [State.consumerEnabled, hc]
  exact hready j hc

section Run
variable {e : Nat → Turn} {r : Nat → State} (hrun : IsRun e r) (hfair : WeaklyFair e r)
include hrun hfair

/-- A position of the dump at which the consumer stays enabled is left by the consumer's own turn. -/
theorem leadsTo_of_consumer {P Q : State → Prop} (hdump : ∀ s, P s → s.cons.inDump)
    (hready : ∀ s j, P s → s.cons = .rSend j → s.txReady = true)
    (hother : ∀ s t, t.cons = s.cons → (s.txReady = true → t.txReady = true) → P s → P t)
    (hmove : ∀ s t, exec .cmdR s = .next t → P s → Q t) : LeadsTo r P Q := by
  intro n hn
  have hconsumer : ∀ m, P (r m) → e m = .consumer → Q (r (m + 1)) := by
    intro m hP hx
    have h := hrun m
    rw [hx, turnStep_inDump (hdump _ hP)] at h
    exact hmove _ _ h hP
  refine eventually_of_fair (x := .consumer) (fun m hP => ?_) (fun hP => ?_) hconsumer hn
  · by_cases hx : e m = .consumer
    · exact .inr (hconsumer m hP hx)
    · obtain ⟨hcons, htx⟩ := (turnStep_cases (hrun m)).other_agent hx
      exact .inl (hother _ _ hcons htx hP)
  · exact hfair.consumer n fun m hm =>
      State.consumerEnabled_of_inDump (hdump _ (hP m hm)) fun j => hready _ j (hP m hm)

theorem leadsTo_rSend_of_rStop :
    LeadsTo r (fun s => s.cons = .rStop) (fun s => s.cons = .rSend 0#10) := by
  refine leadsTo_of_consumer hrun hfair (fun s hc => .inr (.inl hc)) (fun s j hc hc' => ?_)
    (fun s t hcons _ hc => hcons.trans hc) (fun s t h hc => ?_)
  · cases hc.symm.trans hc'
  · rw [exec_cmdR_rStop hc] at h
    cases h
    rfl

theorem leadsTo_waitCmd_of_rStart :
    LeadsTo r (fun s => s.cons = .rStart) (fun s => s.cons = .waitCmd) := by
  refine leadsTo_of_consumer hrun hfair (fun s hc => .inr (.inr (.inr hc))) (fun s j hc hc' => ?_)
    (fun s t hcons _ hc => hcons.trans hc) (fun s t h hc => ?_)
  · cases hc.symm.trans hc'
  · rw [exec_cmdR_rStart hc] at h
    cases h
    rfl

theorem leadsTo_afterSend_of_ready (j : Index) :
    LeadsTo r (fun s => s.cons = .rSend j ∧ s.txReady = true) (fun s => s.cons = afterSend j) := by
  refine leadsTo_of_consumer hrun hfair (fun s ⟨hc, _⟩ => .inr (.inr (.inl ⟨j, hc⟩)))
    (fun s j' ⟨_, hready⟩ _ => hready)
    (fun s t hcons htx ⟨hc, hready⟩ => ⟨hcons.trans hc, htx hready⟩) (fun s t h ⟨hc, hready⟩ => ?_)
  rw [exec_cmdR_rSend hc, sendStep_of_ready hready rfl] at h
  cases h
  rfl

/-- The transport becomes ready for a byte that is waiting for it. -/
theorem leadsTo_ready (j : Index) :
    LeadsTo r (fun s => s.cons = .rSend j) (fun s => s.cons = .rSend j ∧ s.txReady = true) := by
  intro n hc
  by_cases hready : (r n).txReady = true
  · exact ⟨n, le_rfl, hc, hready⟩
  refine eventually_of_fair (x := .hostAccept) (P := fun s => s.cons = .rSend j ∧ s.txReady = false)
    (Q := fun s => s.cons = .rSend j ∧ s.txReady = true)
    (fun m ⟨hcm, hm⟩ => ?_) (hfair.host n j) (fun m ⟨hcm, hm⟩ hx => ?_)
    ⟨hc, Bool.eq_false_iff.2 hready⟩
  · have hc' := turnStep_cons_of_not_ready (hrun m) hcm hm
    exact (Bool.eq_false_or_eq_true _).symm.imp (And.intro hc') (And.intro hc')
  · refine ⟨turnStep_cons_of_not_ready (hrun m) hcm hm, ?_⟩
    have h := hrun m
    rw [hx] at h
    rw [← Host.Outcome.next.inj h]
    exact State.hostAccept_txReady _

theorem leadsTo_afterSend (j : Index) :
    LeadsTo r (fun s => s.cons = .rSend j) (fun s => s.cons = afterSend j) :=
  (leadsTo_ready hrun hfair j).trans (leadsTo_afterSend_of_ready hrun hfair j)

/-- By induction on the bytes still to be sent. -/
theorem leadsTo_rStart_of_rSend (j : Index) :
    LeadsTo r (fun s => s.cons = .rSend j) (fun s => s.cons = .rStart) := by
  induction hk : 1023 - j.toNat generalizing j with
  | zero =>
    have hlast : afterSend j = .rStart := by rw [afterSend_eq, if_neg (by omega)]
    have h := leadsTo_afterSend hrun hfair j
    rwa [hlast] at h
  | succ k ih =>
    have hnext : afterSend j = .rSend (BitVec.ofNat 10 (j.toNat + 1)) := by
      rw [afterSend_eq, if_pos (by omega)]
    have h := leadsTo_afterSend hrun hfair j
    rw [hnext] at h
    refine h.trans (ih _ ?_)
    rw [BitVec.toNat_ofNat, Nat.mod_eq_of_lt (by omega)]
    omega

end Run

/-- Settles O50: from `RStop` to byte 0, from each byte to the next and to `RStart`, and from there to
`WaitCmd`. -/
theorem fairDumpEnds : Obligations.FairDumpEnds := by
  unfold Obligations.FairDumpEnds
  intro e r n hrun hfair hpos
  have hstart := leadsTo_waitCmd_of_rStart hrun hfair
  have hsend := fun j => (leadsTo_rStart_of_rSend hrun hfair j).trans hstart
  obtain hc | ⟨j, hc⟩ | hc := hpos
  · exact ((leadsTo_rSend_of_rStop hrun hfair).trans (hsend _)) n hc
  · exact hsend j n hc
  · exact hstart n hc

end Sys2Proof.Machine
end
